-- ==== Sys2Proof/Word.lean ====
section
/-! DEFINITION. The words of the block: the widths of 00_scope.md R4 that the spec fixes. Every value is unsigned and bit
0 is the least significant bit (00_scope.md R5). -/

namespace Sys2Proof

/-- A byte: W_SAMPLE = 8 (00_scope.md R4). -/
abbrev Byte := BitVec 8

/-- A motor drive level: W_DRIVE = 16, an unsigned magnitude passed through unchanged (30_encoding.md R73). -/
abbrev DriveLevel := BitVec 16

/-- A state index, the address of a State record: W_STATE = 4 (00_scope.md R4, 20_memory.md R40). -/
abbrev StateIdx := BitVec 4

/-- An Input code, 0 to 3 (10_state.md R13). -/
abbrev InputCode := BitVec 2

/-- The phase counter's word: W_PHASE = 4 (00_scope.md R4, 10_state.md R14). -/
abbrev PhaseWord := BitVec 4

end Sys2Proof
end

