-- ==== Sys2Proof/Config.lean ====
section
/-! DEFINITION. What is fixed before reset is released: the build parameters of 00_scope.md R4 and R9 with the State
table, and the free values of the Environment. -/

namespace Sys2Proof

/-- One State record (30_encoding.md R64): the nine attributes of a State. `dwell` is a count of ticks of W_DWELL =
W_ELAPSED bits, a parameter, so it is a natural number that `Params.wf` bounds (40_transition_engine.md R85). -/
structure StateRecord where
  left  : DriveLevel
  right : DriveLevel
  ind0  : Bool
  ind1  : Bool
  dwell : Nat
  next0 : StateIdx
  next1 : StateIdx
  next2 : StateIdx
  next3 : StateIdx
deriving DecidableEq, Repr

/-- The build parameters (00_scope.md R4). The table holds exactly N_STATES records at the indices 0 .. N_STATES-1, no
holes (20_memory.md R47), so N_STATES is its length. Nothing in a run writes a parameter (10_state.md R22). -/
structure Params where
  /-- N_PHASE -/
  nPhase           : Nat
  /-- W_ELAPSED, which is also W_DWELL -/
  wElapsed         : Nat
  /-- ATOMIC_DWELL_RESET -/
  atomicDwellReset : Bool
  /-- INPUT_RESET -/
  inputReset       : InputCode
  /-- START_IDX -/
  startIdx         : StateIdx
  /-- TERM_IDX -/
  termIdx          : StateIdx
  /-- TABLE -/
  table            : List StateRecord
deriving DecidableEq, Repr

/-- N_STATES (20_memory.md R47). -/
def Params.nStates (p : Params) : Nat := p.table.length

/-- One sample of the input pins (10_state.md R27): what the Environment presents to one step. `sensorData` is the byte a
SensorEnd() of that step returns, `startIn` the bit a StartIn() of that step returns (1 = pressed, R123). -/
structure Pins where
  rst        : Bool
  tick       : Bool
  startIn    : Bool
  sensorData : Byte
deriving DecidableEq, Repr, Inhabited

/-- FREE VALUE (notes/assumptions/3.md): the pin sample of a step whose sample no list decides. The Environment's draws are
under no law (00_scope.md R7, R9, 60_exceptions.md R143), so nothing in Lean can say what this is. -/
opaque Config.freePins : Nat → Pins

/-- The record of the spec's smallest well-formed table (95_test_vectors.md WF6). -/
def StateRecord.smallest : StateRecord :=
  { left := 0, right := 0, ind0 := false, ind1 := false, dwell := 0, next0 := 0, next1 := 0, next2 := 0, next3 := 0 }

/-- DESIGN CHOICE (notes/assumptions/2.md): the parameters of `State.reset`. The spec's defaults N_PHASE = 10, W_ELAPSED =
16, ATOMIC_DWELL_RESET = false, INPUT_RESET = 0 (00_scope.md R4) and its smallest well-formed table (95_test_vectors.md
WF6), because TABLE is OPEN and no source holds the reference table (40_transition_engine.md R86). -/
def Params.smallest : Params :=
  { nPhase := 10, wElapsed := 16, atomicDwellReset := false, inputReset := 0, startIdx := 0, termIdx := 0,
    table := [StateRecord.smallest] }

end Sys2Proof
end

