-- ==== Sys2Proof/Syntax.lean ====
section
/-! DEFINITION. The operations of the block, one constructor per row of spec/opcode_table.json, and the selector words
that encode them (30_encoding.md R60). -/

namespace Sys2Proof

/-- The atomic operations. TICK.IDLE has three rows in the opcode table, so it has three constructors; their argument is
the row's free bits of `phase` (30_encoding.md R66). -/
inductive Instr where
  /-- TICK.BEGIN, format S 0000 (R90) -/
  | tickBegin
  /-- TICK.END, format S 0001 (R91); its byte is drawn by SensorEnd() -/
  | tickEnd
  /-- TICK.IDLE, format S 001x: phase 2 to 3 (R92) -/
  | tickIdle23 (x : BitVec 1)
  /-- TICK.IDLE, format S 01xx: phase 4 to 7 (R92) -/
  | tickIdle47 (x : BitVec 2)
  /-- TICK.IDLE, format S 1xxx: phase 8 to N_PHASE-1 (R92); at N_PHASE = 10 this is the table's row 100x -/
  | tickIdle8up (x : BitVec 3)
  /-- CL.TEST, format C 000 (R101) -/
  | clTest
  /-- CL.READ, format C 001 (R102) -/
  | clRead
  /-- CL.CLEAR, format C 010 (R103) -/
  | clClear
  /-- CL.RENDER, format C 011 (R104) -/
  | clRender
  /-- CL.CMP, format C 100 (R105, R109) -/
  | clCmp
  /-- CL.TRANS, format C 101 (R106) -/
  | clTrans
  /-- CL.RESET, format C 110 (R107) -/
  | clReset
  /-- GATE.PRESS, format G 00 (R120); its bit is drawn by StartIn() -/
  | gatePress
  /-- GATE.RELEASE, format G 01 (R121); its bit is drawn by StartIn() -/
  | gateRelease
  /-- RESET, format R 1 (R122) -/
  | reset
deriving DecidableEq, Repr

/-- An encoded operation: the word of the selector that selects it (30_encoding.md R60). -/
inductive SelectorWord where
  /-- format S: the Sampler's selector `phase` -/
  | S (phase : PhaseWord)
  /-- format C: the Control Loop's selector `cl_pc` -/
  | C (clPc : BitVec 3)
  /-- format G: the start gate's selector `gate` -/
  | G (gate : BitVec 2)
  /-- format R: the reset input `rst` -/
  | R (rst : BitVec 1)
deriving DecidableEq, Repr

end Sys2Proof
end

