-- ==== Sys2Proof/WellFormed.lean ====
section
/-! DEFINITION. Which operations exist at a given N_PHASE: a TICK.IDLE names a phase below N_PHASE (30_encoding.md R66,
R69). -/

namespace Sys2Proof

/-- The phase an operation of format S is selected by (30_encoding.md R66); none for the other formats. -/
def Instr.phase? : Instr → Option PhaseWord
  | .tickBegin => some 0
  | .tickEnd => some 1
  | .tickIdle23 x => some ((1 : BitVec 3) ++ x)
  | .tickIdle47 x => some ((1 : BitVec 2) ++ x)
  | .tickIdle8up x => some ((1 : BitVec 1) ++ x)
  | .clTest => none
  | .clRead => none
  | .clClear => none
  | .clRender => none
  | .clCmp => none
  | .clTrans => none
  | .clReset => none
  | .gatePress => none
  | .gateRelease => none
  | .reset => none

/-- An operation is well formed at N_PHASE = `nPhase` when its phase, if it has one, is below N_PHASE. -/
def Instr.wf (nPhase : Nat) (i : Instr) : Bool :=
  match i.phase? with
  | some p => decide (p.toNat < nPhase)
  | none => true

end Sys2Proof
end

