-- ==== Sys2Proof/Decode.lean ====
section
/-! DEFINITION. From selector words to operations and back (30_encoding.md R60, R66 to R69), the fields of the sensor byte
(format B, R61) and the ROM word of a State record (format T, R65). -/

namespace Sys2Proof

/-- Why a selector word selects no operation. Decoding raises these; each is safe, since the spec gives the word no
meaning. -/
inductive DecodeError where
  /-- `phase` of N_PHASE or more (30_encoding.md R69) -/
  | reservedPhase
  /-- `cl_pc = 7` (30_encoding.md R69) -/
  | reservedClPc
  /-- `gate = 3` (30_encoding.md R69) -/
  | reservedGate
  /-- `gate = 2` is G_RUN and selects no gate operation (30_encoding.md R68) -/
  | gateRunSelectsNone
  /-- `rst = 0` selects nothing (30_encoding.md R68) -/
  | rstLowSelectsNone
deriving DecidableEq, Repr

/-- Format S (30_encoding.md R66): a phase below N_PHASE selects the Sampler's operation. -/
def decodeS (nPhase : Nat) (p : PhaseWord) : Except DecodeError Instr :=
  if nPhase ≤ p.toNat then .error .reservedPhase
  else if p = 0 then .ok .tickBegin
  else if p = 1 then .ok .tickEnd
  else if p.extractLsb' 1 3 = 1 then .ok (.tickIdle23 (p.extractLsb' 0 1))
  else if p.extractLsb' 2 2 = 1 then .ok (.tickIdle47 (p.extractLsb' 0 2))
  else .ok (.tickIdle8up (p.extractLsb' 0 3))

/-- Format C (30_encoding.md R67): the seven operations of an iteration in order. -/
def decodeC (w : BitVec 3) : Except DecodeError Instr :=
  if w = 0 then .ok .clTest
  else if w = 1 then .ok .clRead
  else if w = 2 then .ok .clClear
  else if w = 3 then .ok .clRender
  else if w = 4 then .ok .clCmp
  else if w = 5 then .ok .clTrans
  else if w = 6 then .ok .clReset
  else .error .reservedClPc

/-- Format G (30_encoding.md R68). -/
def decodeG (w : BitVec 2) : Except DecodeError Instr :=
  if w = 0 then .ok .gatePress
  else if w = 1 then .ok .gateRelease
  else if w = 2 then .error .gateRunSelectsNone
  else .error .reservedGate

/-- Format R (30_encoding.md R68). -/
def decodeR (w : BitVec 1) : Except DecodeError Instr :=
  if w = 1 then .ok .reset else .error .rstLowSelectsNone

/-- Total decoding of a selector word (30_encoding.md R60). -/
def decode (nPhase : Nat) : SelectorWord → Except DecodeError Instr
  | .S p => decodeS nPhase p
  | .C w => decodeC w
  | .G w => decodeG w
  | .R w => decodeR w

/-- The selector word of an operation (30_encoding.md section 5, the operation map). -/
def encode : Instr → SelectorWord
  | .tickBegin => .S 0
  | .tickEnd => .S 1
  | .tickIdle23 x => .S ((1 : BitVec 3) ++ x)
  | .tickIdle47 x => .S ((1 : BitVec 2) ++ x)
  | .tickIdle8up x => .S ((1 : BitVec 1) ++ x)
  | .clTest => .C 0
  | .clRead => .C 1
  | .clClear => .C 2
  | .clRender => .C 3
  | .clCmp => .C 4
  | .clTrans => .C 5
  | .clReset => .C 6
  | .gatePress => .G 0
  | .gateRelease => .G 1
  | .reset => .R 1

/-- Whether a word selects an operation at the table's N_PHASE = 10. -/
def selectsOperation (w : SelectorWord) : Bool :=
  match decode Params.smallest.nPhase w with
  | .ok _ => true
  | .error _ => false

/-- The selector word that a word `w` of `nbits` bits of spec/opcode_table.json stands for. A width of 1 to 4 bits names its
format. A whole byte names none: the four formats' words overlap there (0 is TICK.BEGIN, CL.TEST and GATE.PRESS), so the
byte is read in the dispatch order of 30_encoding.md R60 (R, then G, then C, then S) in the first format that has a word of
that value which selects an operation (DESIGN CHOICE, notes/assumptions/10.md). -/
def tableWord (nbits w : Nat) : Option SelectorWord :=
  if nbits = 1 then (if w < 2 then some (.R (BitVec.ofNat 1 w)) else none)
  else if nbits = 2 then (if w < 4 then some (.G (BitVec.ofNat 2 w)) else none)
  else if nbits = 3 then (if w < 8 then some (.C (BitVec.ofNat 3 w)) else none)
  else if nbits = 4 then (if w < 16 then some (.S (BitVec.ofNat 4 w)) else none)
  else if w < 2 && selectsOperation (.R (BitVec.ofNat 1 w)) then some (.R (BitVec.ofNat 1 w))
  else if w < 4 && selectsOperation (.G (BitVec.ofNat 2 w)) then some (.G (BitVec.ofNat 2 w))
  else if w < 8 && selectsOperation (.C (BitVec.ofNat 3 w)) then some (.C (BitVec.ofNat 3 w))
  else if w < 16 then some (.S (BitVec.ofNat 4 w))
  else none

/-- The operation the decoder reads from a word of the opcode table, whose rows are valid for N_PHASE = 10
(30_encoding.md section 5). -/
def decodeTableWord (nbits w : Nat) : Option Instr :=
  match tableWord nbits w with
  | none => none
  | some sw =>
    match decode Params.smallest.nPhase sw with
    | .ok i => some i
    | .error _ => none

/-! ### Format B, the sensor byte (30_encoding.md R61) -/

/-- Bits 7:5, which take part only in the sentinel test. -/
def byteOtherHi (b : Byte) : BitVec 3 := b.extractLsb' 5 3

/-- Bits 4:3, the steering bits. -/
def byteCode (b : Byte) : InputCode := b.extractLsb' 3 2

/-- Bits 2:0, which take part only in the sentinel test. -/
def byteOtherLo (b : Byte) : BitVec 3 := b.extractLsb' 0 3

/-! ### Format T, the State record's ROM word (30_encoding.md R65) -/

/-- The ROM word of a record for a dwell field of `w` bits: the fields of R65 from bit 0 upward, abutting. At `w` = 16 it
has the 66 bits of R65. -/
def packRecord (w : Nat) (r : StateRecord) : BitVec (4 + 4 + 4 + 4 + w + 1 + 1 + 16 + 16) :=
  r.next3 ++ r.next2 ++ r.next1 ++ r.next0 ++ BitVec.ofNat w r.dwell ++ BitVec.ofBool r.ind1 ++ BitVec.ofBool r.ind0
    ++ r.right ++ r.left

/-- The record a ROM word holds (30_encoding.md R65). -/
def unpackRecord (w : Nat) (v : BitVec (4 + 4 + 4 + 4 + w + 1 + 1 + 16 + 16)) : StateRecord :=
  { left := v.extractLsb' 0 16
    right := v.extractLsb' 16 16
    ind0 := v.getLsbD 32
    ind1 := v.getLsbD 33
    dwell := (v.extractLsb' 34 w).toNat
    next0 := v.extractLsb' (34 + w) 4
    next1 := v.extractLsb' (38 + w) 4
    next2 := v.extractLsb' (42 + w) 4
    next3 := v.extractLsb' (46 + w) 4 }

end Sys2Proof
end

