-- ==== Sys2Proof/Machine/State.lean ====
section
/-! DEFINITION. The state of the block (10_state.md R10), the reasons a step can stop, and the state after reset
(10_state.md R26). -/

namespace Sys2Proof.Machine

/-- The register `gate` (10_state.md R12): the start gate's phase. Its value 3 is reserved and unrepresentable (30_encoding.md
R69). -/
inductive Gate where
  /-- G_WAIT_PRESS = 0 -/
  | waitPress
  /-- G_WAIT_RELEASE = 1 -/
  | waitRelease
  /-- G_RUN = 2 -/
  | run
deriving DecidableEq, Repr

/-- The register `cl_pc` (10_state.md R12): which operation of the Control Loop is next. Its value 7 is reserved and
unrepresentable (30_encoding.md R69). -/
inductive ClPc where
  /-- P_TEST = 0 -/
  | test
  /-- P_READ = 1 -/
  | read
  /-- P_CLEAR = 2 -/
  | clear
  /-- P_RENDER = 3 -/
  | render
  /-- P_CMP = 4 -/
  | cmp
  /-- P_TRANS = 5 -/
  | trans
  /-- P_RESET = 6 -/
  | reset
deriving DecidableEq, Repr

/-- The machine's state: the fourteen registers of 10_state.md R10 (the last two are the spec's ghosts, R20), the build
parameters, which no step writes (R22; notes/assumptions/1.md), and the Environment's pin samples (notes/assumptions/3.md). -/
structure State where
  gate        : Gate
  clPc        : ClPc
  cur         : StateIdx
  input       : InputCode
  phase       : PhaseWord
  elapsed     : Nat
  sample      : Byte
  sampleReady : Bool
  motorL      : DriveLevel
  motorR      : DriveLevel
  ind0        : Bool
  ind1        : Bool
  driveCount  : Nat
  beginCount  : Nat
  params      : Params
  env         : List Pins
  drawIndex   : Nat
deriving DecidableEq, Repr

/-- The reasons a step stops with a fault. The spec's one exception, SensorLost, is no stop and stands not here
(60_exceptions.md R137). -/
inductive Fault where
  /-- TableRead(i) with i of N_STATES or more: the address does not exist (20_memory.md R44). Raised by CL.RENDER, CL.CMP and
  CL.TRANS. Safe: no state that meets the invariant raises it, and the spec gives such a read no value. -/
  | noRecord (index : StateIdx)
deriving DecidableEq, Repr

/-- The reasons a step is refused. -/
inductive Refusal where
  /-- An arm of exec whose instruction has no meaning yet. Raised by no arm. Safe. -/
  | notModelled (mnemonic : String)
  /-- The table and parameters fail 40_transition_engine.md R81 to R85: "refuses an ill-formed one before the first step"
  (20_memory.md R44). Raised by step. Safe. -/
  | illFormedParams
  /-- A selector register holds a reserved value (30_encoding.md R69). Raised by step. Safe. -/
  | reservedSelector (why : DecodeError)
deriving DecidableEq, Repr

/-- The state after RESET of the block built with parameters `p` (10_state.md R26), with no pin sample decided. -/
def State.initial (p : Params) : State :=
  { gate := .waitPress, clPc := .test, cur := p.startIdx, input := p.inputReset, phase := 0, elapsed := 0, sample := 0,
    sampleReady := false, motorL := 0, motorR := 0, ind0 := false, ind1 := false, driveCount := 0, beginCount := 0,
    params := p, env := [], drawIndex := 0 }

/-- The machine right after reset (10_state.md R26). Every register is at the value R26 gives; the parameters are those of
notes/assumptions/2.md. -/
def State.reset : State := State.initial Params.smallest

end Sys2Proof.Machine
end

