-- ==== Sys2Proof/Machine/Flags.lean ====
section
/-! DEFINITION. The block's one flag, `sampleReady` (10_state.md R17), and its one comparison, the dwell test
(42_control_loop.md R105). -/

namespace Sys2Proof.Machine

/-- Set the flag (TICK.END, 10_state.md R17). -/
def setSampleReady (s : State) : State := { s with sampleReady := true }

/-- Clear the flag (CL.CLEAR, 10_state.md R17). -/
def clearSampleReady (s : State) : State := { s with sampleReady := false }

/-- The dwell-timer comparator `elapsed >= Dwell`, unsigned (42_control_loop.md R105). -/
def dwellExpired (s : State) (r : StateRecord) : Bool := decide (r.dwell ≤ s.elapsed)

end Sys2Proof.Machine
end

