-- ==== Sys2Proof/Machine/Table.lean ====
section
/-! DEFINITION. The Transition Engine (40_transition_engine.md): the read-only State table, its lookup functions and the
conditions a table must meet before the model runs it. -/

namespace Sys2Proof.Machine

/-- TableRead(i) (20_memory.md R41): the whole record at a state index; none at an index of N_STATES or more, which the spec
gives no value (R44). -/
def tableRead (p : Params) (i : StateIdx) : Option StateRecord := p.table[i.toNat]?

/-- The field next[c] of a record (30_encoding.md R64, 40_transition_engine.md R80). -/
def recordNext (r : StateRecord) (c : InputCode) : StateIdx :=
  if c = 0 then r.next0 else if c = 1 then r.next1 else if c = 2 then r.next2 else r.next3

/-- Totality of one record's transitions (40_transition_engine.md R81): all four successors are below N_STATES. -/
def recordTotal (nStates : Nat) (r : StateRecord) : Bool :=
  decide (r.next0.toNat < nStates) && decide (r.next1.toNat < nStates) && decide (r.next2.toNat < nStates)
    && decide (r.next3.toNat < nStates)

/-- The terminal State is absorbing and stands still (40_transition_engine.md R82, R83). -/
def terminalOk (term : StateIdx) (r : StateRecord) : Bool :=
  r.next0 == term && r.next1 == term && r.next2 == term && r.next3 == term && r.left == 0 && r.right == 0

/-- Well-formed parameters: 40_transition_engine.md R81 to R85 and the ranges of 00_scope.md R4 (N_PHASE of 2 or more,
N_STATES of 1 or more). That W_PHASE = W_STATE = 4 bits hold every phase and every state index is DEDUCED from their widths
(notes/assumptions/8.md). -/
def paramsWf (p : Params) : Bool :=
  decide (2 ≤ p.nPhase) && decide (p.nPhase ≤ 16) && decide (1 ≤ p.nStates) && decide (p.nStates ≤ 16)
    && decide (p.startIdx.toNat < p.nStates) && decide (p.termIdx.toNat < p.nStates)
    && p.table.all (recordTotal p.nStates)
    && p.table.all (fun r => decide (r.dwell < 2 ^ p.wElapsed))
    && (match tableRead p p.termIdx with
        | some r => terminalOk p.termIdx r
        | none => false)

end Sys2Proof.Machine
end

