-- ==== Sys2Proof/Machine/Operands.lean ====
section
/-! DEFINITION. Where an operation's operands come from: the input pins of the step (10_state.md R27), the fields of the
sensor byte (30_encoding.md R62, R63) and the records of the State table (20_memory.md R40, R41). -/

namespace Sys2Proof.Machine

/-- The pin sample of this step: the first decided one, else a free value (notes/assumptions/3.md). -/
def pinsNow (s : State) : Pins := s.env.headD (Config.freePins s.drawIndex)

/-- SensorEnd(): the byte on sensor_data at this step, an unconstrained draw (60_exceptions.md R143). -/
def sensorEnd (s : State) : Byte := (pinsNow s).sensorData

/-- StartIn(): the start-control level at this step, true when pressed (43_start_gate_reset.md R123). -/
def startIn (s : State) : Bool := (pinsNow s).startIn

/-- InputOf(b) = zext_2((b & 0b00011000) >> 3) (30_encoding.md R62). -/
def inputOf (b : Byte) : InputCode := ((b &&& 0b00011000) >>> 3).setWidth 2

/-- IsSentinel(b): all eight bits of the raw byte, before any masking (30_encoding.md R63). -/
def isSentinel (b : Byte) : Bool := b == 0xFF

/-- Go on with the record at index `i`; where the table has none, stop (20_memory.md R44). -/
def withRecord (s : State) (i : StateIdx) (k : StateRecord → Host.Outcome State Fault Refusal) :
    Host.Outcome State Fault Refusal :=
  match tableRead s.params i with
  | some r => k r
  | none => .fault (.noRecord i)

end Sys2Proof.Machine
end

