-- ==== Sys2Proof/Machine/Ops.lean ====
section
/-! DEFINITION. The operations the meanings share: the counters of the Sampler, the collaborator calls, the table edge, the
one exception and the reset of all registers. -/

namespace Sys2Proof.Machine

/-- sat_inc_W(v): v + 1 below 2^W - 1, else v (00_scope.md R6, 41_sampler.md R94). -/
def satInc (w v : Nat) : Nat := if v < 2 ^ w - 1 then v + 1 else v

/-- inc_mod_N(v): 0 if v + 1 = N, else v + 1 (00_scope.md R6, 41_sampler.md R95). -/
def incMod (n : Nat) (v : PhaseWord) : PhaseWord := if v.toNat + 1 = n then 0 else v + 1

/-- The "every invocation" part of a Sampler step: count the tick and advance the phase (41_sampler.md R94, R95, R96). -/
def countTick (s : State) : State :=
  { s with elapsed := satInc s.params.wElapsed s.elapsed, phase := incMod s.params.nPhase s.phase }

/-- SensorBegin(), whose pulse the spec records in the ghost `begin_count` (10_state.md R20, 41_sampler.md R90). -/
def sensorBegin (s : State) : State := { s with beginCount := s.beginCount + 1 }

/-- SetDrive(l, r): the motor outputs, and the pulse recorded in the ghost `drive_count` (10_state.md R18, R20). -/
def setDrive (l r : DriveLevel) (s : State) : State :=
  { s with motorL := l, motorR := r, driveCount := s.driveCount + 1 }

/-- Drive both indicator outputs from a record (42_control_loop.md R104). -/
def renderIndicators (r : StateRecord) (s : State) : State := { s with ind0 := r.ind0, ind1 := r.ind1 }

/-- Restart the dwell timer: a plain store of 0 (42_control_loop.md R107). -/
def restartDwell (s : State) : State := { s with elapsed := 0 }

/-- Give the sequencer its next operation (42_control_loop.md R100). -/
def goTo (pc : ClPc) (s : State) : State := { s with clPc := pc }

/-- TAKING THE EXCEPTION SensorLost: `cur <- TERM_IDX`, and nothing else; nothing is saved and there is no return
(60_exceptions.md R137, R138). -/
def raiseSensorLost (s : State) : State := { s with cur := s.params.termIdx }

/-- Take the table edge the Input code chooses and issue the new State's motor levels (42_control_loop.md R106), then go on
with the state that leaves. -/
def takeEdge (s : State) (k : State → Host.Outcome State Fault Refusal) : Host.Outcome State Fault Refusal :=
  withRecord s s.cur fun r =>
    withRecord s (recordNext r s.input) fun n =>
      k (setDrive n.left n.right { s with cur := recordNext r s.input })

/-- Every register to its reset value (43_start_gate_reset.md R122, 10_state.md R26). The parameters and the pin samples are
no registers and stay. -/
def resetRegisters (s : State) : State :=
  { s with
    gate := .waitPress, clPc := .test,
    cur := s.params.startIdx, input := s.params.inputReset,
    phase := 0, elapsed := 0, sample := 0x00, sampleReady := false,
    motorL := 0, motorR := 0, ind0 := false, ind1 := false,
    driveCount := 0, beginCount := 0 }

end Sys2Proof.Machine
end

