-- ==== Sys2Proof/Machine/ControlLoop.lean ====
section
/-! DEFINITION. The Control Loop's operations (42_control_loop.md R101 to R107, R109). -/

namespace Sys2Proof.Machine

/-- CL.TEST (42_control_loop.md R101). -/
def execClTest (s : State) : Host.Outcome State Fault Refusal :=
  .next (goTo (if s.sampleReady then .read else .render) s)

/-- CL.READ (42_control_loop.md R102): on the sentinel raise SensorLost, else latch the Input code. It reads whatever `sample`
holds at this step, so a sentinel published after a CL.TEST that saw 1 acts here, in the same iteration. R102 says so, R115 and
60_exceptions.md R136 put it into the next iteration; the model follows R102 (DEDUCED, notes/assumptions/23.md). -/
def execClRead (s : State) : Host.Outcome State Fault Refusal :=
  .next (goTo .clear (if isSentinel s.sample then raiseSensorLost s else { s with input := inputOf s.sample }))

/-- CL.CLEAR (42_control_loop.md R103). A sentinel published after CL.READ is lost here (notes/assumptions/23.md). -/
def execClClear (s : State) : Host.Outcome State Fault Refusal :=
  .next (goTo .render (clearSampleReady s))

/-- CL.RENDER (42_control_loop.md R104). -/
def execClRender (s : State) : Host.Outcome State Fault Refusal :=
  withRecord s s.cur fun r => .next (goTo .cmp (renderIndicators r s))

/-- CL.CMP (42_control_loop.md R105); with ATOMIC_DWELL_RESET it does the whole of step 3 (R109). -/
def execClCmp (s : State) : Host.Outcome State Fault Refusal :=
  withRecord s s.cur fun r =>
    if dwellExpired s r then
      if s.params.atomicDwellReset then takeEdge s fun t => .next (goTo .test (restartDwell t))
      else .next (goTo .trans s)
    else .next (goTo .test s)

/-- CL.TRANS (42_control_loop.md R106). -/
def execClTrans (s : State) : Host.Outcome State Fault Refusal :=
  takeEdge s fun t => .next (goTo .reset t)

/-- CL.RESET (42_control_loop.md R107). -/
def execClReset (s : State) : Host.Outcome State Fault Refusal :=
  .next (goTo .test (restartDwell s))

end Sys2Proof.Machine
end

