-- ==== Sys2Proof/Machine/Sampler.lean ====
section
/-! DEFINITION. The Periodic Sampler's operations (41_sampler.md R90 to R96). -/

namespace Sys2Proof.Machine

/-- TICK.BEGIN (41_sampler.md R90): request an acquisition, count the tick. -/
def execTickBegin (s : State) : Host.Outcome State Fault Refusal :=
  .next (countTick (sensorBegin s))

/-- TICK.END (41_sampler.md R91): publish the sensor's byte, then set the flag, then count the tick. -/
def execTickEnd (s : State) : Host.Outcome State Fault Refusal :=
  .next (countTick (setSampleReady { s with sample := sensorEnd s }))

/-- TICK.IDLE at phase 2 to 3 (41_sampler.md R92): count the tick. -/
def execTickIdle23 (s : State) : Host.Outcome State Fault Refusal :=
  .next (countTick s)

/-- TICK.IDLE at phase 4 to 7 (41_sampler.md R92): count the tick. -/
def execTickIdle47 (s : State) : Host.Outcome State Fault Refusal :=
  .next (countTick s)

/-- TICK.IDLE from phase 8 (41_sampler.md R92): count the tick. -/
def execTickIdle8up (s : State) : Host.Outcome State Fault Refusal :=
  .next (countTick s)

end Sys2Proof.Machine
end

