-- ==== Sys2Proof/Machine/StartGate.lean ====
section
/-! DEFINITION. The start gate and reset (43_start_gate_reset.md R120 to R122). -/

namespace Sys2Proof.Machine

/-- GATE.PRESS (43_start_gate_reset.md R120): a polling step that repeats until it sees the press. -/
def execGatePress (s : State) : Host.Outcome State Fault Refusal :=
  .next (if startIn s then { s with gate := .waitRelease } else s)

/-- GATE.RELEASE (43_start_gate_reset.md R121): a polling step that repeats until it sees the release, then opens the gate. -/
def execGateRelease (s : State) : Host.Outcome State Fault Refusal :=
  .next (if startIn s then s else { s with gate := .run })

/-- RESET (43_start_gate_reset.md R122). -/
def execReset (s : State) : Host.Outcome State Fault Refusal :=
  .next (resetRegisters s)

end Sys2Proof.Machine
end

