-- ==== Sys2Proof/Machine/Dispatch.lean ====
section
/-! DEFINITION. Every operation to its meaning, one arm a constructor. -/

namespace Sys2Proof.Machine

def exec (i : Instr) (s : State) : Host.Outcome State Fault Refusal :=
  match i with
  -- the Periodic Sampler (41_sampler.md)
  | .tickBegin => Sys2Proof.Machine.execTickBegin s
  | .tickEnd => Sys2Proof.Machine.execTickEnd s
  | .tickIdle23 _ => Sys2Proof.Machine.execTickIdle23 s
  | .tickIdle47 _ => Sys2Proof.Machine.execTickIdle47 s
  | .tickIdle8up _ => Sys2Proof.Machine.execTickIdle8up s
  -- the Control Loop (42_control_loop.md)
  | .clTest => Sys2Proof.Machine.execClTest s
  | .clRead => Sys2Proof.Machine.execClRead s
  | .clClear => Sys2Proof.Machine.execClClear s
  | .clRender => Sys2Proof.Machine.execClRender s
  | .clCmp => Sys2Proof.Machine.execClCmp s
  | .clTrans => Sys2Proof.Machine.execClTrans s
  | .clReset => Sys2Proof.Machine.execClReset s
  -- the start gate and reset (43_start_gate_reset.md)
  | .gatePress => Sys2Proof.Machine.execGatePress s
  | .gateRelease => Sys2Proof.Machine.execGateRelease s
  | .reset => Sys2Proof.Machine.execReset s

end Sys2Proof.Machine
end

