-- ==== Sys2Proof/Machine/Fetch.lean ====
section
/-! DEFINITION. Which operation a step runs (30_encoding.md R60): the words of the selector registers, the dispatch by input
pins and selectors, and how an operation's word is placed in the selectors. -/

namespace Sys2Proof.Machine

/-- The word of `gate` (10_state.md R12). -/
def gateWord : Gate → BitVec 2
  | .waitPress => 0
  | .waitRelease => 1
  | .run => 2

/-- The word of `cl_pc` (10_state.md R12). -/
def clPcWord : ClPc → BitVec 3
  | .test => 0
  | .read => 1
  | .clear => 2
  | .render => 3
  | .cmp => 4
  | .trans => 5
  | .reset => 6

/-- The value of `gate` with a given word; none for the reserved word 3. -/
def gateOfWord (w : BitVec 2) : Option Gate :=
  if w = 0 then some .waitPress else if w = 1 then some .waitRelease else if w = 2 then some .run else none

/-- The value of `cl_pc` with a given word; none for the reserved word 7. -/
def clPcOfWord (w : BitVec 3) : Option ClPc :=
  if w = 0 then some .test else if w = 1 then some .read else if w = 2 then some .clear
  else if w = 3 then some .render else if w = 4 then some .cmp else if w = 5 then some .trans
  else if w = 6 then some .reset else none

/-- The selector word the step decodes (30_encoding.md R60): rst wins over everything (60_exceptions.md R135); a tick runs
the Sampler while gate = G_RUN and is dropped before (41_sampler.md R93), which is `none`; else the Control context steps. -/
def selectWord (s : State) : Option SelectorWord :=
  if (pinsNow s).rst then some (.R 1)
  else if (pinsNow s).tick then (if s.gate = .run then some (.S s.phase) else none)
  else if s.gate = .run then some (.C (clPcWord s.clPc))
  else some (.G (gateWord s.gate))

/-- The step's pin sample is used up; the next step has the next one. -/
def usePins (s : State) : State := { s with env := s.env.tail, drawIndex := s.drawIndex + 1 }

/-- The pin sample under which the word's agent steps, with operand pins of zeros. -/
def pinsFor : SelectorWord → Pins
  | .S _ => { rst := false, tick := true, startIn := false, sensorData := 0 }
  | .C _ => { rst := false, tick := false, startIn := false, sensorData := 0 }
  | .G _ => { rst := false, tick := false, startIn := false, sensorData := 0 }
  | .R w => { rst := decide (w = 1), tick := false, startIn := false, sensorData := 0 }

/-- Place a word in the selector register of its format, and decide the next pin sample so that its agent steps next. A
reserved word of `gate` or `cl_pc` has no place (30_encoding.md R69) and leaves the register. -/
def placeWord (s : State) (w : SelectorWord) : State :=
  let t := { s with env := pinsFor w :: s.env }
  match w with
  | .S p => { t with gate := .run, phase := p }
  | .C c => { t with gate := .run, clPc := (clPcOfWord c).getD s.clPc }
  | .G g => { t with gate := (gateOfWord g).getD s.gate }
  | .R _ => t

/-- The rows of spec/opcode_table.json are valid for N_PHASE = 10 (30_encoding.md section 5): parameters for which they are
stay, others give way to the smallest ones, under which every operation can run. -/
def tableParams (p : Params) : Params :=
  if paramsWf p && p.nPhase == Params.smallest.nPhase then p else Params.smallest

/-- The state after a step's outcome: a next state has used the step's pin sample up. -/
def afterStep : Host.Outcome State Fault Refusal → Host.Outcome State Fault Refusal
  | .next t => .next (usePins t)
  | .fault f => .fault f
  | .refused r => .refused r

end Sys2Proof.Machine
end

