-- ==== Sys2Proof/Machine/Step.lean ====
section
/-! DEFINITION. One step of the block (00_scope.md R7): one atomic operation of one agent, chosen by the pin sample and the
selector registers. -/

namespace Sys2Proof.Machine

/-- One step. Ill-formed parameters are refused before the first step (20_memory.md R44); a dropped tick changes no
register (41_sampler.md R93); a reserved selector is refused (30_encoding.md R69). -/
def step (s : State) : Host.Outcome State Fault Refusal :=
  if paramsWf s.params then
    match selectWord s with
    | none => .next (usePins s)
    | some w =>
      match decode s.params.nPhase w with
      | .ok i => afterStep (exec i s)
      | .error e => .refused (.reservedSelector e)
  else .refused .illFormedParams

/-- `s` with a word of the opcode table placed in the selectors, so that the next step runs its operation. A word the table
reading has no selector for leaves `s` (notes/assumptions/10.md). -/
def State.withFetchWord (s : State) (nbits w : Nat) : State :=
  match tableWord nbits w with
  | some sw => placeWord { s with params := tableParams s.params } sw
  | none => s

end Sys2Proof.Machine
end

