-- ==== Sys2Proof/Machine/Pulses.lean ====
section
/-! DEFINITION. The output pulses of an operation (10_state.md R18, R27): they are not state, but a function of the
operation a step runs and the state it runs in. -/

namespace Sys2Proof.Machine

/-- The pulse outputs sens_begin, sens_end and drive_strobe (10_state.md R27). -/
structure Pulses where
  sensBegin   : Bool
  sensEnd     : Bool
  driveStrobe : Bool
deriving DecidableEq, Repr

/-- No pulse. -/
def noPulse : Pulses := { sensBegin := false, sensEnd := false, driveStrobe := false }

/-- Whether CL.CMP does the whole of step 3 here (42_control_loop.md R109): the variant is built in and the dwell is over. -/
def cmpTakesEdge (s : State) : Bool :=
  s.params.atomicDwellReset && (match tableRead s.params s.cur with
    | some r => dwellExpired s r
    | none => false)

/-- The pulses of an operation: SensorBegin() in TICK.BEGIN, SensorEnd() in TICK.END (60_exceptions.md R143), SetDrive in
CL.TRANS (R144), and in CL.CMP where it takes the edge (42_control_loop.md R109). RESET gives no drive_strobe
(43_start_gate_reset.md R122). -/
def pulses (i : Instr) (s : State) : Pulses :=
  match i with
  | .tickBegin => { noPulse with sensBegin := true }
  | .tickEnd => { noPulse with sensEnd := true }
  | .tickIdle23 _ => noPulse
  | .tickIdle47 _ => noPulse
  | .tickIdle8up _ => noPulse
  | .clTest => noPulse
  | .clRead => noPulse
  | .clClear => noPulse
  | .clRender => noPulse
  | .clCmp => { noPulse with driveStrobe := cmpTakesEdge s }
  | .clTrans => { noPulse with driveStrobe := true }
  | .clReset => noPulse
  | .gatePress => noPulse
  | .gateRelease => noPulse
  | .reset => noPulse

end Sys2Proof.Machine
end

