-- ==== Sys2Proof/Machine/Iteration.lean ====
section
/-! DEFINITION. ITER, one iteration of the Control Loop read as one block (42_control_loop.md R108): a function of the state
at its start, written from R108's text and not from the seven operations. -/

namespace Sys2Proof.Machine

/-- Whether the iteration's step 1 finds the sentinel (42_control_loop.md R108). -/
def iterSentinel (s : State) : Bool := s.sampleReady && isSentinel s.sample

/-- `c1`: the cursor after step 1 (42_control_loop.md R108). -/
def iterCursor (s : State) : StateIdx := if iterSentinel s then s.params.termIdx else s.cur

/-- `k1`: the Input code after step 1 (42_control_loop.md R108). -/
def iterInput (s : State) : InputCode :=
  if s.sampleReady && !isSentinel s.sample then inputOf s.sample else s.input

/-- Whether the iteration's dwell test succeeds: `e >= Dwell(c1)` (42_control_loop.md R108). -/
def iterExpired (s : State) : Bool :=
  match tableRead s.params (iterCursor s) with
  | some r => decide (r.dwell ≤ s.elapsed)
  | none => false

/-- ITER as a function of the state at its start (42_control_loop.md R108). -/
def iterate (s : State) : Host.Outcome State Fault Refusal :=
  withRecord s (iterCursor s) fun r =>
    let t := { s with cur := iterCursor s, input := iterInput s, sampleReady := false, ind0 := r.ind0, ind1 := r.ind1 }
    if iterExpired s then
      withRecord s (recordNext r (iterInput s)) fun n =>
        .next { t with cur := recordNext r (iterInput s), motorL := n.left, motorR := n.right,
                       driveCount := s.driveCount + 1, elapsed := 0 }
    else .next t

/-- How many operations the iteration has (42_control_loop.md R100): three, two more where a sample is consumed, two more
where a transition is taken in operations of its own (in the atomic variant CL.CMP takes it, R109). -/
def iterLength (s : State) : Nat :=
  3 + (if s.sampleReady then 2 else 0) + (if iterExpired s && !s.params.atomicDwellReset then 2 else 0)

end Sys2Proof.Machine
end

