-- ==== Sys2Proof/Machine/Schedule.lean ====
section
/-! DEFINITION. Schedules (30_encoding.md R72): step tokens and the pseudo-operations START and ITER, the pin samples that
stand for them, and the named premise PROMPT_CLEAR (70_reset_and_hazards.md R165). -/

namespace Sys2Proof.Machine

/-- The operation this step runs; none for a dropped tick and for a reserved selector. -/
def nextInstr (s : State) : Option Instr :=
  match selectWord s with
  | none => none
  | some w =>
    match decode s.params.nPhase w with
    | .ok i => some i
    | .error _ => none

/-- A schedule's tokens (30_encoding.md R72). -/
inductive Token where
  /-- `T`: one Sampler step, whose operation follows from `phase`; dropped while gate is not G_RUN -/
  | tick
  /-- `T(0xNN)`: a Sampler step that is a TICK.END whose SensorEnd() returns the byte -/
  | tickByte (b : Byte)
  /-- `G(b)`: one gate step whose StartIn() returns the bit -/
  | gate (b : Bool)
  /-- a CL.* mnemonic: one Control step -/
  | control (pc : ClPc)
  /-- `RESET` -/
  | reset
  /-- `ITER`: one whole iteration with no Sampler step inside -/
  | iter
deriving DecidableEq, Repr

/-- `START` is `G(1) G(0)` (30_encoding.md R72). -/
def startTokens : List Token := [.gate true, .gate false]

/-- A pin sample under which the Control context steps, its start input at `b`. -/
def controlPins (b : Bool) : Pins := { rst := false, tick := false, startIn := b, sensorData := 0 }

/-- The pin samples a token stands for at a state. The byte of a plain `T` is no part of the token: it is free. -/
def tokenPins (s : State) : Token → List Pins
  | .tick => [{ rst := false, tick := true, startIn := false, sensorData := (Config.freePins s.drawIndex).sensorData }]
  | .tickByte b => [{ rst := false, tick := true, startIn := false, sensorData := b }]
  | .gate b => [controlPins b]
  | .control _ => [controlPins false]
  | .reset => [{ rst := true, tick := false, startIn := false, sensorData := 0 }]
  | .iter => List.replicate (iterLength s) (controlPins false)

/-- Whether the token names an operation the selectors select at this point (30_encoding.md R72); a `T` before the gate opens
is a dropped tick and well placed. -/
def tokenPlaced (s : State) : Token → Bool
  | .tick => true
  | .tickByte _ => s.gate == .run && s.phase == 1
  | .gate _ => s.gate != .run
  | .control pc => s.gate == .run && s.clPc == pc
  | .reset => true
  | .iter => s.gate == .run && s.clPc == .test

/-- Run the machine for the pin samples `ins`, one step each, stopping at the first stop. -/
def runPins (ins : List Pins) (s : State) : Host.Outcome State Fault Refusal :=
  Sys2Proof.core.run ins.length { s with env := ins ++ s.env }

/-- Run a schedule; none where a token is ill placed (30_encoding.md R72). -/
def runSchedule : List Token → State → Option (Host.Outcome State Fault Refusal)
  | [], s => some (.next s)
  | k :: ks, s =>
    if tokenPlaced s k then
      match runPins (tokenPins s k) s with
      | .next t => runSchedule ks t
      | .fault f => some (.fault f)
      | .refused r => some (.refused r)
    else none

/-- The operations the machine runs over the pin samples `ins`, in order. -/
def opsOver : List Pins → State → List Instr
  | [], _ => []
  | p :: ps, s =>
    let u := { s with env := p :: s.env }
    match step u with
    | .next t => (nextInstr u).toList ++ opsOver ps t
    | .fault _ => (nextInstr u).toList
    | .refused _ => []

/-- The pin samples under which the default machine runs what a block built with ATOMIC_DWELL_RESET runs under `ins`: two
Control samples more, for CL.TRANS and CL.RESET, right after each sample whose CL.CMP takes the edge (42_control_loop.md R109). -/
def withTransitionSteps : List Pins → State → List Pins
  | [], _ => []
  | p :: ps, s =>
    let u := { s with env := p :: s.env }
    match step u with
    | .next t =>
      p :: (if nextInstr u = some .clCmp ∧ cmpTakesEdge s = true then
        controlPins false :: controlPins false :: withTransitionSteps ps t
      else withTransitionSteps ps t)
    | .fault _ => [p]
    | .refused _ => [p]

/-- PROMPT_CLEAR (70_reset_and_hazards.md R165) on the rest of a run: no TICK.END between a CL.READ and the CL.CLEAR that
follows it (`reading`), and between two consecutive TICK.END at least one CL.TEST (`untested`). A RESET ends both spans
(DEDUCED, notes/assumptions/13.md). -/
def promptClear (reading untested : Bool) : List Instr → Bool
  | [] => true
  | i :: is =>
    match i with
    | .tickBegin => promptClear reading untested is
    | .tickEnd => !reading && !untested && promptClear reading true is
    | .tickIdle23 _ => promptClear reading untested is
    | .tickIdle47 _ => promptClear reading untested is
    | .tickIdle8up _ => promptClear reading untested is
    | .clTest => promptClear reading false is
    | .clRead => promptClear true untested is
    | .clClear => promptClear false untested is
    | .clRender => promptClear reading untested is
    | .clCmp => promptClear reading untested is
    | .clTrans => promptClear reading untested is
    | .clReset => promptClear reading untested is
    | .gatePress => promptClear reading untested is
    | .gateRelease => promptClear reading untested is
    | .reset => promptClear false false is

end Sys2Proof.Machine
end

