-- ==== Sys2Proof/Safety.lean ====
section
/-! DEFINITION. What the statements call a good state: the invariant every step keeps, and the terms they share. -/

namespace Sys2Proof.Machine

/-- While the gate is closed every register other than `gate` holds its reset value (43_start_gate_reset.md R124). -/
abbrev ClosedGateAtReset (s : State) : Prop :=
  s = { State.initial s.params with gate := s.gate, env := s.env, drawIndex := s.drawIndex }

/-- The invariant: the parameters are well formed (40_transition_engine.md R81 to R85), no selector, cursor or counter holds
a reserved value (30_encoding.md R69), the sequencer is where 42_control_loop.md R100, R101, R103, R109 put it, and before the gate
opens nothing has moved (R124). -/
abbrev GoodState (s : State) : Prop :=
  paramsWf s.params = true ∧
  s.cur.toNat < s.params.nStates ∧
  s.phase.toNat < s.params.nPhase ∧
  s.elapsed < 2 ^ s.params.wElapsed ∧
  (s.gate ≠ .run → ClosedGateAtReset s) ∧
  (s.clPc = .read ∨ s.clPc = .clear → s.sampleReady = true) ∧
  (s.params.atomicDwellReset = true → s.clPc ≠ .trans ∧ s.clPc ≠ .reset)

/-- The cursor is at the terminal State (42_control_loop.md R112). -/
abbrev AtTerminal (s : State) : Prop := s.cur = s.params.termIdx

/-- The motors stand still. -/
abbrev MotorsStopped (s : State) : Prop := s.motorL = 0 ∧ s.motorR = 0

/-- The next operation is the first of an iteration (42_control_loop.md R100). -/
abbrev AtIterationStart (s : State) : Prop := s.gate = .run ∧ s.clPc = .test

/-- A pin sample with a tick and no reset: a Sampler step once the gate is open. -/
abbrev TickPins (p : Pins) : Prop := p.rst = false ∧ p.tick = true

/-- A pin sample with neither tick nor reset: a Control step. -/
abbrev ControlPins (p : Pins) : Prop := p.rst = false ∧ p.tick = false

/-- Whether an operation is a TICK.IDLE (30_encoding.md R66). -/
def isTickIdle : Instr → Bool
  | .tickIdle23 _ => true
  | .tickIdle47 _ => true
  | .tickIdle8up _ => true
  | .tickBegin => false
  | .tickEnd => false
  | .clTest => false
  | .clRead => false
  | .clClear => false
  | .clRender => false
  | .clCmp => false
  | .clTrans => false
  | .clReset => false
  | .gatePress => false
  | .gateRelease => false
  | .reset => false

/-- Whether an operation is the Sampler's (30_encoding.md section 5). -/
def isSampler (i : Instr) : Bool := i == .tickBegin || i == .tickEnd || isTickIdle i

/-- Whether an operation is the Control Loop's (30_encoding.md section 5). -/
def isControlLoop : Instr → Bool
  | .clTest => true
  | .clRead => true
  | .clClear => true
  | .clRender => true
  | .clCmp => true
  | .clTrans => true
  | .clReset => true
  | .tickIdle23 _ => false
  | .tickIdle47 _ => false
  | .tickIdle8up _ => false
  | .tickBegin => false
  | .tickEnd => false
  | .gatePress => false
  | .gateRelease => false
  | .reset => false

/-- The default machine beside a block built with ATOMIC_DWELL_RESET (42_control_loop.md R109): the same state, the
parameter false. -/
def withoutAtomic (s : State) : State := { s with params := { s.params with atomicDwellReset := false } }

/-- Every read of the block's one memory, the State table (its unit is a whole record, 20_memory.md R40), gives the same in
both states. -/
abbrev SameTable (s t : State) : Prop := ∀ a : StateIdx, tableRead t.params a = tableRead s.params a

end Sys2Proof.Machine
end

