-- ==== Sys2Proof/Certificates/Slice0/Obligations.lean ====
section
/-! DEFINITION. The statements for the provers. Each docstring names the rule of spec/ it formalises, or the sections it is
derived from. No statement rests on the value of a free value, and every one that speaks of parameters holds for all of them
that meet its hypotheses; only InvariantAtReset names the parameters of State.reset (notes/assumptions/2.md). -/

open Sys2Proof Sys2Proof.Machine

/-! ### Encodings -/

/-- 30_encoding.md sections 4, 5: encoding then decoding gives the operation back, at every N_PHASE it exists for. -/
def Obligations.DecodeOfEncode : Prop :=
  ∀ (n : Nat) (i : Instr), i.wf n = true → decode n (encode i) = .ok i

/-- 30_encoding.md sections 4, 5: a word that decodes is the encoding of the operation it decodes to. -/
def Obligations.EncodeOfDecode : Prop :=
  ∀ (n : Nat) (w : SelectorWord) (i : Instr), decode n w = .ok i → encode i = w ∧ i.wf n = true

/-- R66. -/
def Obligations.PhaseSelectsSamplerOperation : Prop :=
  ∀ (n : Nat) (p : PhaseWord), p.toNat < n →
    (p = 0 → decode n (.S p) = .ok .tickBegin) ∧
    (p = 1 → decode n (.S p) = .ok .tickEnd) ∧
    (2 ≤ p.toNat → ∃ i, decode n (.S p) = .ok i ∧ isTickIdle i = true)

/-- R67. -/
def Obligations.ClPcSelectsLoopOperation : Prop :=
  ∀ n : Nat,
    decode n (.C 0) = .ok .clTest ∧ decode n (.C 1) = .ok .clRead ∧ decode n (.C 2) = .ok .clClear ∧
    decode n (.C 3) = .ok .clRender ∧ decode n (.C 4) = .ok .clCmp ∧ decode n (.C 5) = .ok .clTrans ∧
    decode n (.C 6) = .ok .clReset

/-- 30_encoding.md sections 4, 6: exactly these words select nothing. -/
def Obligations.WordsThatSelectNothing : Prop :=
  ∀ (n : Nat) (w : SelectorWord),
    (∃ e, decode n w = .error e) ↔
      match w with
      | .S p => n ≤ p.toNat
      | .C c => c = 7
      | .G g => g = 2 ∨ g = 3
      | .R r => r = 0

/-- 30_encoding.md section 5, words of spec/opcode_table.json written out. -/
def Obligations.TableWordsSanity : Prop :=
  decodeTableWord 4 0b0000 = some .tickBegin ∧ decodeTableWord 4 0b0001 = some .tickEnd ∧
  decodeTableWord 4 0b1001 = some (.tickIdle8up 1) ∧ decodeTableWord 4 0b1010 = none ∧
  decodeTableWord 3 0b101 = some .clTrans ∧ decodeTableWord 3 0b111 = none ∧
  decodeTableWord 2 0b01 = some .gateRelease ∧ decodeTableWord 1 0b1 = some .reset

/-- 30_encoding.md section 2, 95_test_vectors.md section 2.4: the Input code and the sentinel of every byte. -/
def Obligations.SensorByteDecoding : Prop :=
  ∀ b : Byte, (inputOf b).toNat = b.toNat / 8 % 4 ∧ inputOf b = byteCode b ∧ (isSentinel b = true ↔ b.toNat = 255)

/-- 30_encoding.md section 3: the field of each range of bits, for a dwell field of any width. At `w` = 16 the ranges are the
table of R65. -/
def Obligations.RecordWordLayout : Prop :=
  ∀ (w : Nat) (r : StateRecord), r.dwell < 2 ^ w →
    (packRecord w r).extractLsb' 0 16 = r.left ∧
    (packRecord w r).extractLsb' 16 16 = r.right ∧
    (packRecord w r).getLsbD 32 = r.ind0 ∧
    (packRecord w r).getLsbD 33 = r.ind1 ∧
    ((packRecord w r).extractLsb' 34 w).toNat = r.dwell ∧
    (packRecord w r).extractLsb' (34 + w) 4 = r.next0 ∧
    (packRecord w r).extractLsb' (38 + w) 4 = r.next1 ∧
    (packRecord w r).extractLsb' (42 + w) 4 = r.next2 ∧
    (packRecord w r).extractLsb' (46 + w) 4 = r.next3

/-- 30_encoding.md section 3: a record and its ROM word determine each other. -/
def Obligations.RecordWordRoundTrip : Prop :=
  ∀ w : Nat,
    (∀ r : StateRecord, r.dwell < 2 ^ w → unpackRecord w (packRecord w r) = r) ∧
    (∀ v, packRecord w (unpackRecord w v) = v)

/-! ### The State table -/

/-- R81, R82, R83, R84, R85: what a table that the model runs satisfies. -/
def Obligations.WellFormedTableMeetsRules : Prop :=
  ∀ p : Params, paramsWf p = true →
    (∀ s : StateIdx, s.toNat < p.nStates →
      ∃ r, tableRead p s = some r ∧ (∀ c : InputCode, (recordNext r c).toNat < p.nStates) ∧ r.dwell < 2 ^ p.wElapsed) ∧
    (∃ r, tableRead p p.termIdx = some r ∧ (∀ c : InputCode, recordNext r c = p.termIdx) ∧ r.left = 0 ∧ r.right = 0) ∧
    p.startIdx.toNat < p.nStates

/-- 40_transition_engine.md section 2, 00_scope.md section 5: no table that meets the rules is refused, as long as the four
bits of a state index and of `phase` hold N_STATES and N_PHASE (the model's inference, notes/assumptions/8.md). -/
def Obligations.TableMeetingRulesIsRun : Prop :=
  ∀ p : Params, 2 ≤ p.nPhase → p.nPhase ≤ 16 → p.nStates ≤ 16 →
    p.startIdx.toNat < p.nStates →
    (∀ s : StateIdx, s.toNat < p.nStates →
      ∃ r, tableRead p s = some r ∧ (∀ c : InputCode, (recordNext r c).toNat < p.nStates) ∧ r.dwell < 2 ^ p.wElapsed) →
    (∃ r, tableRead p p.termIdx = some r ∧ (∀ c : InputCode, recordNext r c = p.termIdx) ∧ r.left = 0 ∧ r.right = 0) →
    paramsWf p = true

/-- 20_memory.md section 3, 42_control_loop.md section 5: a TableRead outside the table has no value. That exec ends such a read
with Fault.noRecord of the index is the model's choice (DESIGN CHOICE, notes/assumptions/11.md, and notes/assumptions/6.md for
exec in states that no step reaches): the spec refuses the table before the first step. The fault is raised by the operations that read
the table, at the index they read, and by nothing else. CL.CMP reads the successor's record only where it takes the edge. -/
def Obligations.ReadOutsideTableStops : Prop :=
  ∀ s : State,
    (tableRead s.params s.cur = none →
      exec .clRender s = .fault (.noRecord s.cur) ∧ exec .clCmp s = .fault (.noRecord s.cur) ∧
      exec .clTrans s = .fault (.noRecord s.cur)) ∧
    (∀ r, tableRead s.params s.cur = some r → tableRead s.params (recordNext r s.input) = none →
      exec .clTrans s = .fault (.noRecord (recordNext r s.input)) ∧
      (s.params.atomicDwellReset = true → r.dwell ≤ s.elapsed →
        exec .clCmp s = .fault (.noRecord (recordNext r s.input)))) ∧
    (∀ i f, exec i s = .fault f →
      (tableRead s.params s.cur = none ∧ f = .noRecord s.cur ∧ (i = .clRender ∨ i = .clCmp ∨ i = .clTrans)) ∨
      (∃ r, tableRead s.params s.cur = some r ∧ tableRead s.params (recordNext r s.input) = none ∧
        f = .noRecord (recordNext r s.input) ∧
        (i = .clTrans ∨ (i = .clCmp ∧ s.params.atomicDwellReset = true ∧ r.dwell ≤ s.elapsed))))

/-! ### What each operation does: its next state, whole -/

/-- R90: TICK.BEGIN. -/
def Obligations.TickBeginRuns : Prop :=
  ∀ s : State, s.phase = 0 → 2 ≤ s.params.nPhase →
    exec .tickBegin s = .next
      { s with
        beginCount := s.beginCount + 1
        elapsed := if s.elapsed < 2 ^ s.params.wElapsed - 1 then s.elapsed + 1 else s.elapsed
        phase := 1 } ∧
    encode .tickBegin = .S 0 ∧ (pulses .tickBegin s).sensBegin = true ∧
    (paramsWf s.params = true → s.gate = .run → TickPins (pinsNow s) → nextInstr s = some .tickBegin)

/-- 41_sampler.md section 2: TICK.END, for every byte the sensor returns. -/
def Obligations.TickEndRuns : Prop :=
  ∀ (s : State) (b : Byte), s.phase = 1 → 2 ≤ s.params.nPhase → (pinsNow s).sensorData = b →
    exec .tickEnd s = .next
      { s with
        sample := b
        sampleReady := true
        elapsed := if s.elapsed < 2 ^ s.params.wElapsed - 1 then s.elapsed + 1 else s.elapsed
        phase := if s.params.nPhase = 2 then 0 else 2 } ∧
    encode .tickEnd = .S 1 ∧ (pulses .tickEnd s).sensEnd = true ∧
    (paramsWf s.params = true → s.gate = .run → TickPins (pinsNow s) → nextInstr s = some .tickEnd)

/-- R92: TICK.IDLE, whichever of its three rows selects it. -/
def Obligations.TickIdleRuns : Prop :=
  ∀ (s : State) (i : Instr), isTickIdle i = true → 2 ≤ s.phase.toNat → s.phase.toNat < s.params.nPhase →
    exec i s = .next
      { s with
        elapsed := if s.elapsed < 2 ^ s.params.wElapsed - 1 then s.elapsed + 1 else s.elapsed
        phase := BitVec.ofNat 4 ((s.phase.toNat + 1) % s.params.nPhase) } ∧
    pulses i s = noPulse ∧
    (paramsWf s.params = true → s.gate = .run → TickPins (pinsNow s) →
      ∃ k, nextInstr s = some k ∧ isTickIdle k = true ∧ encode k = .S s.phase)

/-- R101: CL.TEST. -/
def Obligations.ClTestRuns : Prop :=
  encode .clTest = .C 0 ∧ ∀ s : State,
    (s.sampleReady = true → exec .clTest s = .next { s with clPc := .read }) ∧
    (s.sampleReady = false → exec .clTest s = .next { s with clPc := .render })

/-- R102: CL.READ on the sentinel and on every other byte, whichever tick published it (for a sentinel published after CL.TEST
see notes/assumptions/23.md). -/
def Obligations.ClReadRuns : Prop :=
  encode .clRead = .C 1 ∧ ∀ s : State,
    (s.sample = 0xFF → exec .clRead s = .next { s with cur := s.params.termIdx, clPc := .clear }) ∧
    (s.sample ≠ 0xFF →
      exec .clRead s = .next { s with input := BitVec.ofNat 2 (s.sample.toNat / 8 % 4), clPc := .clear })

/-- R103: CL.CLEAR. The clear is unconditional. -/
def Obligations.ClClearRuns : Prop :=
  encode .clClear = .C 2 ∧ ∀ s : State, exec .clClear s = .next { s with sampleReady := false, clPc := .render }

/-- R104: CL.RENDER. -/
def Obligations.ClRenderRuns : Prop :=
  encode .clRender = .C 3 ∧ ∀ (s : State) (r : StateRecord), tableRead s.params s.cur = some r →
    exec .clRender s = .next { s with ind0 := r.ind0, ind1 := r.ind1, clPc := .cmp }

/-- R105: CL.CMP of the default machine. -/
def Obligations.ClCmpRuns : Prop :=
  encode .clCmp = .C 4 ∧ ∀ (s : State) (r : StateRecord), s.params.atomicDwellReset = false → tableRead s.params s.cur = some r →
    (r.dwell ≤ s.elapsed → exec .clCmp s = .next { s with clPc := .trans }) ∧
    (s.elapsed < r.dwell → exec .clCmp s = .next { s with clPc := .test })

/-- 42_control_loop.md section 5: CL.CMP with ATOMIC_DWELL_RESET. That it counts in drive_count is the model's inference (DEDUCED,
notes/assumptions/19.md). -/
def Obligations.AtomicClCmpRuns : Prop :=
  ∀ (s : State) (r n : StateRecord), s.params.atomicDwellReset = true → tableRead s.params s.cur = some r →
    tableRead s.params (recordNext r s.input) = some n →
    (r.dwell ≤ s.elapsed →
      exec .clCmp s = .next
        { s with
          cur := recordNext r s.input
          motorL := n.left
          motorR := n.right
          driveCount := s.driveCount + 1
          elapsed := 0
          clPc := .test }) ∧
    (s.elapsed < r.dwell → exec .clCmp s = .next { s with clPc := .test })

/-- R106: CL.TRANS, and that no other operation issues motor levels. -/
def Obligations.ClTransRuns : Prop :=
  encode .clTrans = .C 5 ∧ ∀ (s : State) (r n : StateRecord), tableRead s.params s.cur = some r →
    tableRead s.params (recordNext r s.input) = some n →
    exec .clTrans s = .next
      { s with
        cur := recordNext r s.input
        motorL := n.left
        motorR := n.right
        driveCount := s.driveCount + 1
        clPc := .reset } ∧ (pulses .clTrans s).driveStrobe = true ∧
    (s.params.atomicDwellReset = false → ∀ i, (pulses i s).driveStrobe = true → i = .clTrans)

/-- R107: CL.RESET. -/
def Obligations.ClResetRuns : Prop :=
  encode .clReset = .C 6 ∧ ∀ s : State, exec .clReset s = .next { s with elapsed := 0, clPc := .test }

/-- R120: GATE.PRESS, and that no tick is taken in this phase. -/
def Obligations.GatePressRuns : Prop :=
  encode .gatePress = .G 0 ∧ ∀ s : State, s.gate = .waitPress →
    ((pinsNow s).startIn = true → exec .gatePress s = .next { s with gate := .waitRelease }) ∧
    ((pinsNow s).startIn = false → exec .gatePress s = .next s) ∧
    (paramsWf s.params = true → ControlPins (pinsNow s) → nextInstr s = some .gatePress) ∧
    (TickPins (pinsNow s) → nextInstr s = none)

/-- 43_start_gate_reset.md section 1: GATE.RELEASE. -/
def Obligations.GateReleaseRuns : Prop :=
  encode .gateRelease = .G 1 ∧ ∀ s : State, s.gate = .waitRelease →
    ((pinsNow s).startIn = false → exec .gateRelease s = .next { s with gate := .run }) ∧
    ((pinsNow s).startIn = true → exec .gateRelease s = .next s)

/-- R122: RESET, register by register; the table and the pin samples stay, no drive_strobe is given, and rst overrides every
other selector. -/
def Obligations.ResetRuns : Prop :=
  encode .reset = .R 1 ∧
  (∀ s : State, paramsWf s.params = true → (pinsNow s).rst = true → nextInstr s = some .reset) ∧
  ∀ s : State, pulses .reset s = noPulse ∧ ∃ t : State, exec .reset s = .next t ∧
    t.gate = .waitPress ∧ t.clPc = .test ∧ t.cur = s.params.startIdx ∧ t.input = s.params.inputReset ∧
    t.phase = 0 ∧ t.elapsed = 0 ∧ t.sample = 0x00 ∧ t.sampleReady = false ∧
    t.motorL = 0 ∧ t.motorR = 0 ∧ t.ind0 = false ∧ t.ind1 = false ∧ t.driveCount = 0 ∧ t.beginCount = 0 ∧
    t.params = s.params ∧ SameTable s t ∧ t.env = s.env ∧ t.drawIndex = s.drawIndex

/-! ### What each operation leaves unchanged -/

/-- 10_state.md sections 1, 6: the frame of TICK.BEGIN, TICK.END and TICK.IDLE, in every state. -/
def Obligations.SamplerFrame : Prop :=
  ∀ (i : Instr) (s t : State), isSampler i = true → exec i s = .next t →
    t.gate = s.gate ∧ t.clPc = s.clPc ∧ t.cur = s.cur ∧ t.input = s.input ∧
    t.motorL = s.motorL ∧ t.motorR = s.motorR ∧ t.ind0 = s.ind0 ∧ t.ind1 = s.ind1 ∧ t.driveCount = s.driveCount ∧
    t.params = s.params ∧ SameTable s t ∧ t.env = s.env ∧ t.drawIndex = s.drawIndex ∧
    (i ≠ .tickEnd → t.sample = s.sample ∧ t.sampleReady = s.sampleReady) ∧
    (i ≠ .tickBegin → t.beginCount = s.beginCount)

/-- 10_state.md sections 1, 6, 42_control_loop.md section 5: the frame of the seven operations of the Control Loop, in every
state. That drive_count changes in the atomic CL.CMP is the model's inference (DEDUCED, notes/assumptions/19.md). -/
def Obligations.ControlLoopFrame : Prop :=
  ∀ (i : Instr) (s t : State), isControlLoop i = true → exec i s = .next t →
    t.gate = s.gate ∧ t.phase = s.phase ∧ t.sample = s.sample ∧ t.beginCount = s.beginCount ∧
    t.params = s.params ∧ SameTable s t ∧ t.env = s.env ∧ t.drawIndex = s.drawIndex ∧
    (i ≠ .clClear → t.sampleReady = s.sampleReady) ∧
    (i ≠ .clRender → t.ind0 = s.ind0 ∧ t.ind1 = s.ind1) ∧
    (i ≠ .clRead → t.input = s.input) ∧
    (i = .clRead → s.sample = 0xFF → t.input = s.input) ∧
    (i = .clRead → s.sample ≠ 0xFF → t.cur = s.cur) ∧
    (i ≠ .clRead → i ≠ .clTrans → ¬ (i = .clCmp ∧ cmpTakesEdge s = true) → t.cur = s.cur) ∧
    (i ≠ .clTrans → ¬ (i = .clCmp ∧ cmpTakesEdge s = true) →
      t.motorL = s.motorL ∧ t.motorR = s.motorR ∧ t.driveCount = s.driveCount) ∧
    (i ≠ .clReset → ¬ (i = .clCmp ∧ cmpTakesEdge s = true) → t.elapsed = s.elapsed)

/-- 43_start_gate_reset.md section 1: the two gate operations change nothing but `gate`. -/
def Obligations.StartGateFrame : Prop :=
  ∀ (i : Instr) (s t : State), i = .gatePress ∨ i = .gateRelease → exec i s = .next t →
    t = { s with gate := t.gate } ∧ SameTable s t

/-- R42: nothing writes the table. -/
def Obligations.NothingWritesTheTable : Prop :=
  ∀ (n : Nat) (s t : State), Sys2Proof.core.run n s = .next t → t.params = s.params ∧ SameTable s t

/-! ### One step -/

/-- A step runs the operation its selectors decode to, and uses the step's pin sample up (00_scope.md section 7,
30_encoding.md section 1). -/
def Obligations.StepRunsDecodedOperation : Prop :=
  ∀ (s : State) (w : SelectorWord) (i : Instr), paramsWf s.params = true → selectWord s = some w →
    decode s.params.nPhase w = .ok i →
    (∀ t, exec i s = .next t → step s = .next { t with env := s.env.tail, drawIndex := s.drawIndex + 1 }) ∧
    (∀ f, exec i s = .fault f → step s = .fault f) ∧
    (∀ r, exec i s = .refused r → step s = .refused r)

/-- 30_encoding.md section 1, 41_sampler.md section 1, 60_exceptions.md section 3: which operation a step runs. RESET wins, a
tick wins over the Control context, a tick before the gate opens is dropped. -/
def Obligations.StepDispatchOrder : Prop :=
  ∀ s : State, paramsWf s.params = true → s.phase.toNat < s.params.nPhase →
    ((pinsNow s).rst = true → step s = afterStep (exec .reset s)) ∧
    ((pinsNow s).rst = false → (pinsNow s).tick = true → s.gate ≠ .run →
      step s = .next { s with env := s.env.tail, drawIndex := s.drawIndex + 1 }) ∧
    ((pinsNow s).rst = false → (pinsNow s).tick = true → s.gate = .run →
      ∃ i, encode i = .S s.phase ∧ step s = afterStep (exec i s)) ∧
    ((pinsNow s).rst = false → (pinsNow s).tick = false → s.gate = .waitPress → step s = afterStep (exec .gatePress s)) ∧
    ((pinsNow s).rst = false → (pinsNow s).tick = false → s.gate = .waitRelease → step s = afterStep (exec .gateRelease s)) ∧
    ((pinsNow s).rst = false → (pinsNow s).tick = false → s.gate = .run →
      ∃ i, encode i = .C (clPcWord s.clPc) ∧ step s = afterStep (exec i s))

/-- 20_memory.md section 3, 30_encoding.md section 6: when a step is refused. -/
def Obligations.StepRefusals : Prop :=
  ∀ (s : State) (r : Refusal), step s = .refused r ↔
    (paramsWf s.params = false ∧ r = .illFormedParams) ∨
    (paramsWf s.params = true ∧ (pinsNow s).rst = false ∧ (pinsNow s).tick = true ∧ s.gate = .run ∧
      s.params.nPhase ≤ s.phase.toNat ∧ r = .reservedSelector .reservedPhase)

/-- A word of the opcode table placed in the selectors is the operation the next step runs (the model's interface,
notes/assumptions/10.md; 30_encoding.md section 5). -/
def Obligations.PlacedWordRunsNext : Prop :=
  ∀ (s : State) (nbits w : Nat) (i : Instr), decodeTableWord nbits w = some i →
    step (s.withFetchWord nbits w) = afterStep (exec i (s.withFetchWord nbits w))

/-! ### Invariants over every state and every schedule -/

/-- 10_state.md section 11: the state after reset meets the invariant, for every well-formed table, and for the parameters
the model chose for State.reset (DESIGN CHOICE, notes/assumptions/2.md). -/
def Obligations.InvariantAtReset : Prop :=
  GoodState State.reset ∧ ∀ p : Params, paramsWf p = true → GoodState (State.initial p)

/-- 30_encoding.md section 6, 43_start_gate_reset.md section 1, 42_control_loop.md sections 1, 2, 5: every step keeps the
invariant. -/
def Obligations.StepKeepsInvariant : Prop :=
  ∀ s t : State, GoodState s → step s = .next t → GoodState t

/-- 00_scope.md section 7: the run never ends. From every state that meets the invariant any number of steps is possible. -/
def Obligations.RunNeverStops : Prop :=
  ∀ (n : Nat) (s : State), GoodState s → ∃ t, Sys2Proof.core.run n s = .next t ∧ GoodState t

/-- 10_state.md section 2: what a step that changes the cursor was. -/
def Obligations.CursorChangesOnlyByEdgeOverrideOrReset : Prop :=
  ∀ s t : State, step s = .next t → t.cur ≠ s.cur →
    (nextInstr s = some .reset ∧ t.cur = s.params.startIdx) ∨
    (nextInstr s = some .clRead ∧ s.sample = 0xFF ∧ t.cur = s.params.termIdx) ∨
    (∃ r, tableRead s.params s.cur = some r ∧ t.cur = recordNext r s.input ∧
      (nextInstr s = some .clTrans ∨ (nextInstr s = some .clCmp ∧ s.params.atomicDwellReset = true ∧ r.dwell ≤ s.elapsed)))

/-- 42_control_loop.md section 6: absorption. In every run without RESET from the terminal State the cursor stays there, and
motors that stand still stay so. -/
def Obligations.TerminalStateAbsorbs : Prop :=
  ∀ (s t : State) (ins : List Pins), GoodState s → AtTerminal s → (∀ p ∈ ins, p.rst = false) → runPins ins s = .next t →
    AtTerminal t ∧ (MotorsStopped s → MotorsStopped t)

/-- 42_control_loop.md section 6: a transition into or inside the terminal State stops the motors. -/
def Obligations.TransitionToTerminalStopsMotors : Prop :=
  ∀ s : State, GoodState s → ∃ t, exec .clTrans s = .next t ∧ (AtTerminal t → MotorsStopped t) ∧ (AtTerminal s → AtTerminal t)

/-- 42_control_loop.md section 6, 70_reset_and_hazards.md section 3: after an override, once the terminal State's dwell is
over, six steps of the Control context stop the motors, whatever ticks and samples fall between them. -/
def Obligations.MotorsStopAfterOverride : Prop :=
  ∀ (s t : State) (r : StateRecord) (ins : List Pins), GoodState s → s.gate = .run → AtTerminal s → s.clPc ≠ .reset →
    tableRead s.params s.cur = some r → r.dwell ≤ s.elapsed → (∀ p ∈ ins, p.rst = false) →
    6 ≤ ins.countP (fun p => !p.tick) → runPins ins s = .next t → MotorsStopped t

/-- R124: before the gate opens nothing else happens. -/
def Obligations.ClosedGateHoldsResetValues : Prop :=
  ∀ (p : Params) (ins : List Pins) (t : State), paramsWf p = true → runPins ins (State.initial p) = .next t →
    t.gate ≠ .run →
    t = { State.initial p with gate := t.gate, env := t.env, drawIndex := t.drawIndex } ∧
    (nextInstr t = none ∨ nextInstr t = some .reset ∨ (t.gate = .waitPress ∧ nextInstr t = some .gatePress) ∨
      (t.gate = .waitRelease ∧ nextInstr t = some .gateRelease))

/-- 41_sampler.md section 1: in every run without RESET after the gate has opened, `phase` counts the ticks modulo
N_PHASE, whatever Control steps fall between them. -/
def Obligations.PhaseCountsTicks : Prop :=
  ∀ (s t : State) (ins : List Pins), GoodState s → s.gate = .run → (∀ p ∈ ins, p.rst = false) → runPins ins s = .next t →
    t.gate = .run ∧ t.phase.toNat = (s.phase.toNat + ins.countP (fun p => p.tick)) % s.params.nPhase

/-- 41_sampler.md section 2, 70_reset_and_hazards.md section 3: `phase` gets to 1 only by a TICK.BEGIN, and only then does a
TICK.END follow, so the sensor's result is asked for one tick after its acquisition began. -/
def Obligations.SensorSpacing : Prop :=
  ∀ s t : State, step s = .next t →
    (nextInstr s = some .tickEnd → s.phase = 1) ∧
    (t.phase = 1 → s.phase ≠ 1 → nextInstr s = some .tickBegin) ∧
    (s.phase = 1 → t.phase ≠ 1 → nextInstr s = some .tickEnd ∨ nextInstr s = some .reset)

/-- 10_state.md section 4: who sets and who clears `sampleReady`. -/
def Obligations.SampleReadyWriters : Prop :=
  ∀ s t : State, step s = .next t →
    (s.sampleReady = false → t.sampleReady = true → nextInstr s = some .tickEnd) ∧
    (s.sampleReady = true → t.sampleReady = false → nextInstr s = some .clClear ∨ nextInstr s = some .reset) ∧
    (nextInstr s = some .tickEnd → t.sampleReady = true ∧ t.sample = (pinsNow s).sensorData)

/-- 10_state.md section 5, 60_exceptions.md section 9, 42_control_loop.md section 5: the motor outputs change exactly with a
drive_strobe, to the levels of the State the cursor is then at, and every other operation but RESET leaves them. The spec names
CL.TRANS for the strobe and the count; that the atomic CL.CMP, which does the whole of step 3, gives both where it takes the edge is the
model's inference (DEDUCED, notes/assumptions/19.md). -/
def Obligations.MotorsFollowDriveStrobe : Prop :=
  ∀ (s t : State) (i : Instr), step s = .next t → nextInstr s = some i → i ≠ .reset →
    ((pulses i s).driveStrobe = true →
      t.driveCount = s.driveCount + 1 ∧ ∃ n, tableRead t.params t.cur = some n ∧ t.motorL = n.left ∧ t.motorR = n.right) ∧
    ((pulses i s).driveStrobe = false →
      t.driveCount = s.driveCount ∧ t.motorL = s.motorL ∧ t.motorR = s.motorR) ∧
    ((pulses i s).sensBegin = true → t.beginCount = s.beginCount + 1) ∧
    ((pulses i s).sensBegin = false → t.beginCount = s.beginCount)

/-- 60_exceptions.md section 7: the phases of the main context are entered in order and left backwards only by RESET. -/
def Obligations.GateOpensInOrder : Prop :=
  ∀ s t : State, step s = .next t → t.gate ≠ s.gate →
    (s.gate = .waitPress ∧ t.gate = .waitRelease ∧ nextInstr s = some .gatePress ∧ (pinsNow s).startIn = true) ∨
    (s.gate = .waitRelease ∧ t.gate = .run ∧ nextInstr s = some .gateRelease ∧ (pinsNow s).startIn = false) ∨
    (t.gate = .waitPress ∧ nextInstr s = some .reset)

/-- 42_control_loop.md section 6: the indicators show the current State after every CL.RENDER, and go on to show it until
the cursor changes or RESET comes. -/
def Obligations.RenderedIndicatorsStay : Prop :=
  ∀ (s t : State) (r : StateRecord), step s = .next t → tableRead t.params t.cur = some r →
    (nextInstr s = some .clRender → t.ind0 = r.ind0 ∧ t.ind1 = r.ind1) ∧
    (nextInstr s ≠ some .reset → t.cur = s.cur → s.ind0 = r.ind0 → s.ind1 = r.ind1 →
      t.ind0 = r.ind0 ∧ t.ind1 = r.ind1)

/-! ### Ticks between the operations of an iteration -/

/-- 10_state.md section 6: a Sampler step commutes with CL.RENDER and with CL.TRANS. -/
def Obligations.SamplerCommutesWithLocalOperations : Prop :=
  ∀ (i j : Instr) (s a b : State), isSampler i = true → j = .clRender ∨ j = .clTrans →
    exec i s = .next a → exec j s = .next b →
    ∃ t, exec j a = .next t ∧ exec i b = .next t

/-- 10_state.md section 6: of what the Control context writes the Sampler reads nothing but `elapsed`. -/
def Obligations.SamplerIgnoresControlState : Prop :=
  ∀ (i : Instr) (s u : State), isSampler i = true →
    s.phase = u.phase → s.elapsed = u.elapsed → s.params = u.params → pinsNow s = pinsNow u →
    ∃ t v, exec i s = .next t ∧ exec i u = .next v ∧ t.phase = v.phase ∧ t.elapsed = v.elapsed ∧
      (i = .tickEnd → t.sample = v.sample ∧ t.sampleReady = v.sampleReady)

/-- 70_reset_and_hazards.md section 3, 42_control_loop.md section 6: once CL.CMP found the dwell over, the transition follows
from the State and the Input code of that moment, whatever ticks and samples arrive, and the increments of the ticks before
CL.RESET are lost. -/
def Obligations.TransitionRunsThroughTicks : Prop :=
  ∀ (s : State) (r n : StateRecord) (c d e : Pins) (ticks more : List Pins), GoodState s → s.gate = .run → s.clPc = .cmp →
    s.params.atomicDwellReset = false →
    tableRead s.params s.cur = some r → tableRead s.params (recordNext r s.input) = some n → r.dwell ≤ s.elapsed →
    ControlPins c → ControlPins d → ControlPins e → (∀ p ∈ ticks, TickPins p) → (∀ p ∈ more, TickPins p) →
    ∃ t, runPins ([c] ++ ticks ++ [d] ++ more ++ [e]) s = .next t ∧
      t.cur = recordNext r s.input ∧ t.input = s.input ∧ t.motorL = n.left ∧ t.motorR = n.right ∧
      t.driveCount = s.driveCount + 1 ∧ t.elapsed = 0 ∧ t.clPc = .test

/-- 20_memory.md section 7, 42_control_loop.md section 2: a TICK.END between CL.READ and CL.CLEAR. The new byte, the sentinel among
them, is published and then discarded unread. For the sentinel 42_control_loop.md section 6 words it otherwise
(notes/assumptions/23.md). -/
def Obligations.SampleBetweenReadAndClearIsLost : Prop :=
  ∀ (s : State) (p c : Pins), GoodState s → s.gate = .run → s.clPc = .clear → s.phase = 1 → TickPins p → ControlPins c →
    ∃ t, runPins [p, c] s = .next t ∧ t.sample = p.sensorData ∧ t.sampleReady = false ∧ t.clPc = .render ∧
      t.input = s.input ∧ t.cur = s.cur

/-- 42_control_loop.md section 2: a TICK.END between a CL.TEST that saw 1 and its CL.READ. CL.READ reads the newer byte, so a
sentinel acts there whatever byte CL.TEST was answered for, and a byte that is none gives the Input code. For the sentinel
60_exceptions.md section 3 words it otherwise; the model follows the rule of CL.READ (DEDUCED, notes/assumptions/23.md). -/
def Obligations.SampleBetweenTestAndReadIsRead : Prop :=
  ∀ (s : State) (p c : Pins), GoodState s → s.gate = .run → s.clPc = .read → s.phase = 1 → TickPins p → ControlPins c →
    ∃ t, runPins [p, c] s = .next t ∧ t.sample = p.sensorData ∧ t.sampleReady = true ∧ t.clPc = .clear ∧
      (p.sensorData = 0xFF → t.cur = s.params.termIdx ∧ t.input = s.input) ∧
      (p.sensorData ≠ 0xFF → t.cur = s.cur ∧ t.input = BitVec.ofNat 2 (p.sensorData.toNat / 8 % 4))

/-- 60_exceptions.md section 3, 42_control_loop.md section 6: a sentinel published anywhere in an iteration after its CL.TEST, which
saw 0. The iteration's transition, if any, goes ahead from the old State, and the next iteration's CL.READ takes the override. -/
def Obligations.SentinelAfterTestWaitsForNextIteration : Prop :=
  ∀ (s : State) (r n : StateRecord) (c p d e : Pins) (before after : List Pins), GoodState s → AtIterationStart s →
    s.sampleReady = false → s.phase = 1 →
    tableRead s.params s.cur = some r → tableRead s.params (recordNext r s.input) = some n →
    (∀ q ∈ c :: d :: e :: before ++ after, ControlPins q) → TickPins p → p.sensorData = 0xFF →
    1 + before.length + after.length = iterLength s → (r.dwell ≤ s.elapsed ∨ s.elapsed + 1 < r.dwell) →
    ∃ t u, runPins (c :: before ++ p :: after) s = .next t ∧ t.clPc = .test ∧ t.sampleReady = true ∧ t.input = s.input ∧
      (r.dwell ≤ s.elapsed → t.cur = recordNext r s.input ∧ t.motorL = n.left ∧ t.motorR = n.right) ∧
      (s.elapsed < r.dwell → t.cur = s.cur ∧ t.motorL = s.motorL ∧ t.motorR = s.motorR) ∧
      runPins [d, e] t = .next u ∧ u.cur = s.params.termIdx ∧ u.input = s.input ∧
      u.motorL = t.motorL ∧ u.motorR = t.motorR

/-- 70_reset_and_hazards.md section 3: under the premise PROMPT_CLEAR the sample that CL.CLEAR marks consumed is the one
CL.READ read. -/
def Obligations.PromptClearKeepsTheReadSample : Prop :=
  ∀ (s t : State) (untested : Bool) (ins : List Pins), GoodState s → s.gate = .run → s.clPc = .clear →
    (∀ p ∈ ins, TickPins p) → promptClear true untested (opsOver ins s) = true → runPins ins s = .next t →
    t.sample = s.sample ∧ t.clPc = .clear ∧ t.sampleReady = true

/-! ### Whole iterations -/

/-- 42_control_loop.md section 5: an iteration with no Sampler step inside is ITER, as a function of the state at its start.
The block ITER is given for the default machine; that it is the iteration of the atomic variant as well, its CL.CMP counted in
drive_count, is the model's inference (DEDUCED, notes/assumptions/19.md). -/
def Obligations.IterationIsOneBlock : Prop :=
  ∀ (s : State) (ins : List Pins), GoodState s → AtIterationStart s → (∀ p ∈ ins, ControlPins p) → ins.length = iterLength s →
    ∃ t, iterate s = .next t ∧ runPins ins s = .next { t with drawIndex := s.drawIndex + iterLength s }

/-- 42_control_loop.md sections 5, 6: dwell gating over an iteration that consumes no sentinel. That drive_count is one more where
the atomic CL.CMP takes the edge is the model's inference (DEDUCED, notes/assumptions/19.md). -/
def Obligations.DwellGatesTheCursor : Prop :=
  ∀ (s t : State) (r : StateRecord) (ins : List Pins), GoodState s → AtIterationStart s → iterSentinel s = false →
    tableRead s.params s.cur = some r → (∀ p ∈ ins, ControlPins p) → ins.length = iterLength s → runPins ins s = .next t →
    (s.elapsed < r.dwell → t.cur = s.cur ∧ t.driveCount = s.driveCount ∧ t.elapsed = s.elapsed) ∧
    (r.dwell ≤ s.elapsed → t.cur = recordNext r t.input ∧ t.driveCount = s.driveCount + 1 ∧ t.elapsed = 0)

/-- 60_exceptions.md sections 3, 4: taking SensorLost. CL.READ moves the cursor alone; CL.CLEAR, CL.RENDER follow with the
new cursor, and the comparison is with the terminal State's dwell. -/
def Obligations.SensorLostSequence : Prop :=
  ∀ (s : State) (r : StateRecord) (ins : List Pins), GoodState s → s.gate = .run → s.clPc = .read → s.sample = 0xFF →
    s.params.atomicDwellReset = false → tableRead s.params s.params.termIdx = some r →
    (∀ p ∈ ins, ControlPins p) → ins.length = 4 →
    runPins ins s = .next
      { s with
        cur := s.params.termIdx
        sampleReady := false
        ind0 := r.ind0
        ind1 := r.ind1
        clPc := if r.dwell ≤ s.elapsed then .trans else .test
        drawIndex := s.drawIndex + 4 }

/-- 42_control_loop.md section 5: every run of a block built with ATOMIC_DWELL_RESET is a run of the default machine from the
same registers to the same registers, under the same pin samples with Control samples added: two right after each step that takes
the edge, so that no Sampler step falls between CL.CMP and CL.RESET. The samples with rst or tick are the same in the same order, and
the operations are the same in the same order but for CL.TRANS and CL.RESET. That the counts of drive_count agree rests on the
model's inference (DEDUCED, notes/assumptions/19.md). -/
def Obligations.AtomicVariantRefinesDefault : Prop :=
  ∀ (s t : State) (ins : List Pins), GoodState s → s.params.atomicDwellReset = true → runPins ins s = .next t →
    runPins (withTransitionSteps ins s) (withoutAtomic s) =
      .next { withoutAtomic t with drawIndex := s.drawIndex + (withTransitionSteps ins s).length } ∧
    ins.Sublist (withTransitionSteps ins s) ∧
    (withTransitionSteps ins s).filter (fun p => p.rst || p.tick) = ins.filter (fun p => p.rst || p.tick) ∧
    (opsOver (withTransitionSteps ins s) (withoutAtomic s)).filter (fun i => i != .clTrans && i != .clReset) = opsOver ins s

/-- 70_reset_and_hazards.md section 1: the start-up sequence, for any number of polls before the press and before the
release. The gate opens and no other register has moved. -/
def Obligations.StartSequenceOpensTheGate : Prop :=
  ∀ (p : Params) (a b : Nat), paramsWf p = true →
    runPins (List.replicate a (controlPins false) ++ List.replicate (b + 1) (controlPins true) ++ [controlPins false])
      (State.initial p) = .next { State.initial p with gate := .run, drawIndex := a + b + 2 }
end

