-- ==== Sys2Proof/Laws/State.lean ====
section
/-! SUPPORT. One lemma per field per named update of the state, so that no proof unfolds a record update. -/

namespace Sys2Proof.Machine

@[simp] theorem setSampleReady_gate (s : State) : (setSampleReady s).gate = s.gate := rfl
@[simp] theorem setSampleReady_clPc (s : State) : (setSampleReady s).clPc = s.clPc := rfl
@[simp] theorem setSampleReady_cur (s : State) : (setSampleReady s).cur = s.cur := rfl
@[simp] theorem setSampleReady_input (s : State) : (setSampleReady s).input = s.input := rfl
@[simp] theorem setSampleReady_phase (s : State) : (setSampleReady s).phase = s.phase := rfl
@[simp] theorem setSampleReady_elapsed (s : State) : (setSampleReady s).elapsed = s.elapsed := rfl
@[simp] theorem setSampleReady_sample (s : State) : (setSampleReady s).sample = s.sample := rfl
@[simp] theorem setSampleReady_sampleReady (s : State) : (setSampleReady s).sampleReady = true := rfl
@[simp] theorem setSampleReady_motorL (s : State) : (setSampleReady s).motorL = s.motorL := rfl
@[simp] theorem setSampleReady_motorR (s : State) : (setSampleReady s).motorR = s.motorR := rfl
@[simp] theorem setSampleReady_ind0 (s : State) : (setSampleReady s).ind0 = s.ind0 := rfl
@[simp] theorem setSampleReady_ind1 (s : State) : (setSampleReady s).ind1 = s.ind1 := rfl
@[simp] theorem setSampleReady_driveCount (s : State) : (setSampleReady s).driveCount = s.driveCount := rfl
@[simp] theorem setSampleReady_beginCount (s : State) : (setSampleReady s).beginCount = s.beginCount := rfl
@[simp] theorem setSampleReady_params (s : State) : (setSampleReady s).params = s.params := rfl
@[simp] theorem setSampleReady_env (s : State) : (setSampleReady s).env = s.env := rfl
@[simp] theorem setSampleReady_drawIndex (s : State) : (setSampleReady s).drawIndex = s.drawIndex := rfl

@[simp] theorem clearSampleReady_gate (s : State) : (clearSampleReady s).gate = s.gate := rfl
@[simp] theorem clearSampleReady_clPc (s : State) : (clearSampleReady s).clPc = s.clPc := rfl
@[simp] theorem clearSampleReady_cur (s : State) : (clearSampleReady s).cur = s.cur := rfl
@[simp] theorem clearSampleReady_input (s : State) : (clearSampleReady s).input = s.input := rfl
@[simp] theorem clearSampleReady_phase (s : State) : (clearSampleReady s).phase = s.phase := rfl
@[simp] theorem clearSampleReady_elapsed (s : State) : (clearSampleReady s).elapsed = s.elapsed := rfl
@[simp] theorem clearSampleReady_sample (s : State) : (clearSampleReady s).sample = s.sample := rfl
@[simp] theorem clearSampleReady_sampleReady (s : State) : (clearSampleReady s).sampleReady = false := rfl
@[simp] theorem clearSampleReady_motorL (s : State) : (clearSampleReady s).motorL = s.motorL := rfl
@[simp] theorem clearSampleReady_motorR (s : State) : (clearSampleReady s).motorR = s.motorR := rfl
@[simp] theorem clearSampleReady_ind0 (s : State) : (clearSampleReady s).ind0 = s.ind0 := rfl
@[simp] theorem clearSampleReady_ind1 (s : State) : (clearSampleReady s).ind1 = s.ind1 := rfl
@[simp] theorem clearSampleReady_driveCount (s : State) : (clearSampleReady s).driveCount = s.driveCount := rfl
@[simp] theorem clearSampleReady_beginCount (s : State) : (clearSampleReady s).beginCount = s.beginCount := rfl
@[simp] theorem clearSampleReady_params (s : State) : (clearSampleReady s).params = s.params := rfl
@[simp] theorem clearSampleReady_env (s : State) : (clearSampleReady s).env = s.env := rfl
@[simp] theorem clearSampleReady_drawIndex (s : State) : (clearSampleReady s).drawIndex = s.drawIndex := rfl

@[simp] theorem countTick_gate (s : State) : (countTick s).gate = s.gate := rfl
@[simp] theorem countTick_clPc (s : State) : (countTick s).clPc = s.clPc := rfl
@[simp] theorem countTick_cur (s : State) : (countTick s).cur = s.cur := rfl
@[simp] theorem countTick_input (s : State) : (countTick s).input = s.input := rfl
@[simp] theorem countTick_phase (s : State) : (countTick s).phase = incMod s.params.nPhase s.phase := rfl
@[simp] theorem countTick_elapsed (s : State) : (countTick s).elapsed = satInc s.params.wElapsed s.elapsed := rfl
@[simp] theorem countTick_sample (s : State) : (countTick s).sample = s.sample := rfl
@[simp] theorem countTick_sampleReady (s : State) : (countTick s).sampleReady = s.sampleReady := rfl
@[simp] theorem countTick_motorL (s : State) : (countTick s).motorL = s.motorL := rfl
@[simp] theorem countTick_motorR (s : State) : (countTick s).motorR = s.motorR := rfl
@[simp] theorem countTick_ind0 (s : State) : (countTick s).ind0 = s.ind0 := rfl
@[simp] theorem countTick_ind1 (s : State) : (countTick s).ind1 = s.ind1 := rfl
@[simp] theorem countTick_driveCount (s : State) : (countTick s).driveCount = s.driveCount := rfl
@[simp] theorem countTick_beginCount (s : State) : (countTick s).beginCount = s.beginCount := rfl
@[simp] theorem countTick_params (s : State) : (countTick s).params = s.params := rfl
@[simp] theorem countTick_env (s : State) : (countTick s).env = s.env := rfl
@[simp] theorem countTick_drawIndex (s : State) : (countTick s).drawIndex = s.drawIndex := rfl

@[simp] theorem sensorBegin_gate (s : State) : (sensorBegin s).gate = s.gate := rfl
@[simp] theorem sensorBegin_clPc (s : State) : (sensorBegin s).clPc = s.clPc := rfl
@[simp] theorem sensorBegin_cur (s : State) : (sensorBegin s).cur = s.cur := rfl
@[simp] theorem sensorBegin_input (s : State) : (sensorBegin s).input = s.input := rfl
@[simp] theorem sensorBegin_phase (s : State) : (sensorBegin s).phase = s.phase := rfl
@[simp] theorem sensorBegin_elapsed (s : State) : (sensorBegin s).elapsed = s.elapsed := rfl
@[simp] theorem sensorBegin_sample (s : State) : (sensorBegin s).sample = s.sample := rfl
@[simp] theorem sensorBegin_sampleReady (s : State) : (sensorBegin s).sampleReady = s.sampleReady := rfl
@[simp] theorem sensorBegin_motorL (s : State) : (sensorBegin s).motorL = s.motorL := rfl
@[simp] theorem sensorBegin_motorR (s : State) : (sensorBegin s).motorR = s.motorR := rfl
@[simp] theorem sensorBegin_ind0 (s : State) : (sensorBegin s).ind0 = s.ind0 := rfl
@[simp] theorem sensorBegin_ind1 (s : State) : (sensorBegin s).ind1 = s.ind1 := rfl
@[simp] theorem sensorBegin_driveCount (s : State) : (sensorBegin s).driveCount = s.driveCount := rfl
@[simp] theorem sensorBegin_beginCount (s : State) : (sensorBegin s).beginCount = s.beginCount + 1 := rfl
@[simp] theorem sensorBegin_params (s : State) : (sensorBegin s).params = s.params := rfl
@[simp] theorem sensorBegin_env (s : State) : (sensorBegin s).env = s.env := rfl
@[simp] theorem sensorBegin_drawIndex (s : State) : (sensorBegin s).drawIndex = s.drawIndex := rfl

@[simp] theorem setDrive_gate (s : State) (l r : DriveLevel) : (setDrive l r s).gate = s.gate := rfl
@[simp] theorem setDrive_clPc (s : State) (l r : DriveLevel) : (setDrive l r s).clPc = s.clPc := rfl
@[simp] theorem setDrive_cur (s : State) (l r : DriveLevel) : (setDrive l r s).cur = s.cur := rfl
@[simp] theorem setDrive_input (s : State) (l r : DriveLevel) : (setDrive l r s).input = s.input := rfl
@[simp] theorem setDrive_phase (s : State) (l r : DriveLevel) : (setDrive l r s).phase = s.phase := rfl
@[simp] theorem setDrive_elapsed (s : State) (l r : DriveLevel) : (setDrive l r s).elapsed = s.elapsed := rfl
@[simp] theorem setDrive_sample (s : State) (l r : DriveLevel) : (setDrive l r s).sample = s.sample := rfl
@[simp] theorem setDrive_sampleReady (s : State) (l r : DriveLevel) : (setDrive l r s).sampleReady = s.sampleReady := rfl
@[simp] theorem setDrive_motorL (s : State) (l r : DriveLevel) : (setDrive l r s).motorL = l := rfl
@[simp] theorem setDrive_motorR (s : State) (l r : DriveLevel) : (setDrive l r s).motorR = r := rfl
@[simp] theorem setDrive_ind0 (s : State) (l r : DriveLevel) : (setDrive l r s).ind0 = s.ind0 := rfl
@[simp] theorem setDrive_ind1 (s : State) (l r : DriveLevel) : (setDrive l r s).ind1 = s.ind1 := rfl
@[simp] theorem setDrive_driveCount (s : State) (l r : DriveLevel) : (setDrive l r s).driveCount = s.driveCount + 1 := rfl
@[simp] theorem setDrive_beginCount (s : State) (l r : DriveLevel) : (setDrive l r s).beginCount = s.beginCount := rfl
@[simp] theorem setDrive_params (s : State) (l r : DriveLevel) : (setDrive l r s).params = s.params := rfl
@[simp] theorem setDrive_env (s : State) (l r : DriveLevel) : (setDrive l r s).env = s.env := rfl
@[simp] theorem setDrive_drawIndex (s : State) (l r : DriveLevel) : (setDrive l r s).drawIndex = s.drawIndex := rfl

@[simp] theorem renderIndicators_gate (s : State) (r : StateRecord) : (renderIndicators r s).gate = s.gate := rfl
@[simp] theorem renderIndicators_clPc (s : State) (r : StateRecord) : (renderIndicators r s).clPc = s.clPc := rfl
@[simp] theorem renderIndicators_cur (s : State) (r : StateRecord) : (renderIndicators r s).cur = s.cur := rfl
@[simp] theorem renderIndicators_input (s : State) (r : StateRecord) : (renderIndicators r s).input = s.input := rfl
@[simp] theorem renderIndicators_phase (s : State) (r : StateRecord) : (renderIndicators r s).phase = s.phase := rfl
@[simp] theorem renderIndicators_elapsed (s : State) (r : StateRecord) : (renderIndicators r s).elapsed = s.elapsed := rfl
@[simp] theorem renderIndicators_sample (s : State) (r : StateRecord) : (renderIndicators r s).sample = s.sample := rfl
@[simp] theorem renderIndicators_sampleReady (s : State) (r : StateRecord) : (renderIndicators r s).sampleReady = s.sampleReady := rfl
@[simp] theorem renderIndicators_motorL (s : State) (r : StateRecord) : (renderIndicators r s).motorL = s.motorL := rfl
@[simp] theorem renderIndicators_motorR (s : State) (r : StateRecord) : (renderIndicators r s).motorR = s.motorR := rfl
@[simp] theorem renderIndicators_ind0 (s : State) (r : StateRecord) : (renderIndicators r s).ind0 = r.ind0 := rfl
@[simp] theorem renderIndicators_ind1 (s : State) (r : StateRecord) : (renderIndicators r s).ind1 = r.ind1 := rfl
@[simp] theorem renderIndicators_driveCount (s : State) (r : StateRecord) : (renderIndicators r s).driveCount = s.driveCount := rfl
@[simp] theorem renderIndicators_beginCount (s : State) (r : StateRecord) : (renderIndicators r s).beginCount = s.beginCount := rfl
@[simp] theorem renderIndicators_params (s : State) (r : StateRecord) : (renderIndicators r s).params = s.params := rfl
@[simp] theorem renderIndicators_env (s : State) (r : StateRecord) : (renderIndicators r s).env = s.env := rfl
@[simp] theorem renderIndicators_drawIndex (s : State) (r : StateRecord) : (renderIndicators r s).drawIndex = s.drawIndex := rfl

@[simp] theorem restartDwell_gate (s : State) : (restartDwell s).gate = s.gate := rfl
@[simp] theorem restartDwell_clPc (s : State) : (restartDwell s).clPc = s.clPc := rfl
@[simp] theorem restartDwell_cur (s : State) : (restartDwell s).cur = s.cur := rfl
@[simp] theorem restartDwell_input (s : State) : (restartDwell s).input = s.input := rfl
@[simp] theorem restartDwell_phase (s : State) : (restartDwell s).phase = s.phase := rfl
@[simp] theorem restartDwell_elapsed (s : State) : (restartDwell s).elapsed = 0 := rfl
@[simp] theorem restartDwell_sample (s : State) : (restartDwell s).sample = s.sample := rfl
@[simp] theorem restartDwell_sampleReady (s : State) : (restartDwell s).sampleReady = s.sampleReady := rfl
@[simp] theorem restartDwell_motorL (s : State) : (restartDwell s).motorL = s.motorL := rfl
@[simp] theorem restartDwell_motorR (s : State) : (restartDwell s).motorR = s.motorR := rfl
@[simp] theorem restartDwell_ind0 (s : State) : (restartDwell s).ind0 = s.ind0 := rfl
@[simp] theorem restartDwell_ind1 (s : State) : (restartDwell s).ind1 = s.ind1 := rfl
@[simp] theorem restartDwell_driveCount (s : State) : (restartDwell s).driveCount = s.driveCount := rfl
@[simp] theorem restartDwell_beginCount (s : State) : (restartDwell s).beginCount = s.beginCount := rfl
@[simp] theorem restartDwell_params (s : State) : (restartDwell s).params = s.params := rfl
@[simp] theorem restartDwell_env (s : State) : (restartDwell s).env = s.env := rfl
@[simp] theorem restartDwell_drawIndex (s : State) : (restartDwell s).drawIndex = s.drawIndex := rfl

@[simp] theorem goTo_gate (s : State) (pc : ClPc) : (goTo pc s).gate = s.gate := rfl
@[simp] theorem goTo_clPc (s : State) (pc : ClPc) : (goTo pc s).clPc = pc := rfl
@[simp] theorem goTo_cur (s : State) (pc : ClPc) : (goTo pc s).cur = s.cur := rfl
@[simp] theorem goTo_input (s : State) (pc : ClPc) : (goTo pc s).input = s.input := rfl
@[simp] theorem goTo_phase (s : State) (pc : ClPc) : (goTo pc s).phase = s.phase := rfl
@[simp] theorem goTo_elapsed (s : State) (pc : ClPc) : (goTo pc s).elapsed = s.elapsed := rfl
@[simp] theorem goTo_sample (s : State) (pc : ClPc) : (goTo pc s).sample = s.sample := rfl
@[simp] theorem goTo_sampleReady (s : State) (pc : ClPc) : (goTo pc s).sampleReady = s.sampleReady := rfl
@[simp] theorem goTo_motorL (s : State) (pc : ClPc) : (goTo pc s).motorL = s.motorL := rfl
@[simp] theorem goTo_motorR (s : State) (pc : ClPc) : (goTo pc s).motorR = s.motorR := rfl
@[simp] theorem goTo_ind0 (s : State) (pc : ClPc) : (goTo pc s).ind0 = s.ind0 := rfl
@[simp] theorem goTo_ind1 (s : State) (pc : ClPc) : (goTo pc s).ind1 = s.ind1 := rfl
@[simp] theorem goTo_driveCount (s : State) (pc : ClPc) : (goTo pc s).driveCount = s.driveCount := rfl
@[simp] theorem goTo_beginCount (s : State) (pc : ClPc) : (goTo pc s).beginCount = s.beginCount := rfl
@[simp] theorem goTo_params (s : State) (pc : ClPc) : (goTo pc s).params = s.params := rfl
@[simp] theorem goTo_env (s : State) (pc : ClPc) : (goTo pc s).env = s.env := rfl
@[simp] theorem goTo_drawIndex (s : State) (pc : ClPc) : (goTo pc s).drawIndex = s.drawIndex := rfl

@[simp] theorem raiseSensorLost_gate (s : State) : (raiseSensorLost s).gate = s.gate := rfl
@[simp] theorem raiseSensorLost_clPc (s : State) : (raiseSensorLost s).clPc = s.clPc := rfl
@[simp] theorem raiseSensorLost_cur (s : State) : (raiseSensorLost s).cur = s.params.termIdx := rfl
@[simp] theorem raiseSensorLost_input (s : State) : (raiseSensorLost s).input = s.input := rfl
@[simp] theorem raiseSensorLost_phase (s : State) : (raiseSensorLost s).phase = s.phase := rfl
@[simp] theorem raiseSensorLost_elapsed (s : State) : (raiseSensorLost s).elapsed = s.elapsed := rfl
@[simp] theorem raiseSensorLost_sample (s : State) : (raiseSensorLost s).sample = s.sample := rfl
@[simp] theorem raiseSensorLost_sampleReady (s : State) : (raiseSensorLost s).sampleReady = s.sampleReady := rfl
@[simp] theorem raiseSensorLost_motorL (s : State) : (raiseSensorLost s).motorL = s.motorL := rfl
@[simp] theorem raiseSensorLost_motorR (s : State) : (raiseSensorLost s).motorR = s.motorR := rfl
@[simp] theorem raiseSensorLost_ind0 (s : State) : (raiseSensorLost s).ind0 = s.ind0 := rfl
@[simp] theorem raiseSensorLost_ind1 (s : State) : (raiseSensorLost s).ind1 = s.ind1 := rfl
@[simp] theorem raiseSensorLost_driveCount (s : State) : (raiseSensorLost s).driveCount = s.driveCount := rfl
@[simp] theorem raiseSensorLost_beginCount (s : State) : (raiseSensorLost s).beginCount = s.beginCount := rfl
@[simp] theorem raiseSensorLost_params (s : State) : (raiseSensorLost s).params = s.params := rfl
@[simp] theorem raiseSensorLost_env (s : State) : (raiseSensorLost s).env = s.env := rfl
@[simp] theorem raiseSensorLost_drawIndex (s : State) : (raiseSensorLost s).drawIndex = s.drawIndex := rfl

@[simp] theorem resetRegisters_gate (s : State) : (resetRegisters s).gate = .waitPress := rfl
@[simp] theorem resetRegisters_clPc (s : State) : (resetRegisters s).clPc = .test := rfl
@[simp] theorem resetRegisters_cur (s : State) : (resetRegisters s).cur = s.params.startIdx := rfl
@[simp] theorem resetRegisters_input (s : State) : (resetRegisters s).input = s.params.inputReset := rfl
@[simp] theorem resetRegisters_phase (s : State) : (resetRegisters s).phase = 0 := rfl
@[simp] theorem resetRegisters_elapsed (s : State) : (resetRegisters s).elapsed = 0 := rfl
@[simp] theorem resetRegisters_sample (s : State) : (resetRegisters s).sample = 0 := rfl
@[simp] theorem resetRegisters_sampleReady (s : State) : (resetRegisters s).sampleReady = false := rfl
@[simp] theorem resetRegisters_motorL (s : State) : (resetRegisters s).motorL = 0 := rfl
@[simp] theorem resetRegisters_motorR (s : State) : (resetRegisters s).motorR = 0 := rfl
@[simp] theorem resetRegisters_ind0 (s : State) : (resetRegisters s).ind0 = false := rfl
@[simp] theorem resetRegisters_ind1 (s : State) : (resetRegisters s).ind1 = false := rfl
@[simp] theorem resetRegisters_driveCount (s : State) : (resetRegisters s).driveCount = 0 := rfl
@[simp] theorem resetRegisters_beginCount (s : State) : (resetRegisters s).beginCount = 0 := rfl
@[simp] theorem resetRegisters_params (s : State) : (resetRegisters s).params = s.params := rfl
@[simp] theorem resetRegisters_env (s : State) : (resetRegisters s).env = s.env := rfl
@[simp] theorem resetRegisters_drawIndex (s : State) : (resetRegisters s).drawIndex = s.drawIndex := rfl

@[simp] theorem usePins_gate (s : State) : (usePins s).gate = s.gate := rfl
@[simp] theorem usePins_clPc (s : State) : (usePins s).clPc = s.clPc := rfl
@[simp] theorem usePins_cur (s : State) : (usePins s).cur = s.cur := rfl
@[simp] theorem usePins_input (s : State) : (usePins s).input = s.input := rfl
@[simp] theorem usePins_phase (s : State) : (usePins s).phase = s.phase := rfl
@[simp] theorem usePins_elapsed (s : State) : (usePins s).elapsed = s.elapsed := rfl
@[simp] theorem usePins_sample (s : State) : (usePins s).sample = s.sample := rfl
@[simp] theorem usePins_sampleReady (s : State) : (usePins s).sampleReady = s.sampleReady := rfl
@[simp] theorem usePins_motorL (s : State) : (usePins s).motorL = s.motorL := rfl
@[simp] theorem usePins_motorR (s : State) : (usePins s).motorR = s.motorR := rfl
@[simp] theorem usePins_ind0 (s : State) : (usePins s).ind0 = s.ind0 := rfl
@[simp] theorem usePins_ind1 (s : State) : (usePins s).ind1 = s.ind1 := rfl
@[simp] theorem usePins_driveCount (s : State) : (usePins s).driveCount = s.driveCount := rfl
@[simp] theorem usePins_beginCount (s : State) : (usePins s).beginCount = s.beginCount := rfl
@[simp] theorem usePins_params (s : State) : (usePins s).params = s.params := rfl
@[simp] theorem usePins_env (s : State) : (usePins s).env = s.env.tail := rfl
@[simp] theorem usePins_drawIndex (s : State) : (usePins s).drawIndex = s.drawIndex + 1 := rfl

end Sys2Proof.Machine
end

