-- ==== Sys2Proof/Laws/Ops.lean ====
section
/-! SUPPORT. What each shared operation can do, said once: the counters, the table read, the table edge, and what
well-formed parameters give. -/

namespace Sys2Proof.Machine

theorem satInc_lt {w v : Nat} (h : v < 2 ^ w) : satInc w v < 2 ^ w := by
  unfold satInc; split <;> omega

theorem le_satInc (w v : Nat) : v ≤ satInc w v := by
  unfold satInc; split <;> omega

/-- inc_mod_N as a number: (v + 1) mod N, for a phase below N_PHASE. -/
theorem incMod_toNat {n : Nat} {v : PhaseWord} (hv : v.toNat < n) (hn : n ≤ 16) :
    (incMod n v).toNat = (v.toNat + 1) % n := by
  unfold incMod
  split
  · rename_i h; simp [h]
  · have : v.toNat + 1 < n := by omega
    rw [Nat.mod_eq_of_lt this, BitVec.toNat_add]
    simp; omega

/-- `withRecord` goes on exactly when the table has the record. -/
theorem withRecord_next {s t : State} {i : StateIdx} {k : StateRecord → Host.Outcome State Fault Refusal}
    (h : withRecord s i k = .next t) : ∃ r, tableRead s.params i = some r ∧ k r = .next t := by
  unfold withRecord at h
  split at h
  · exact ⟨_, ‹_›, h⟩
  · cases h

theorem withRecord_some {s : State} {i : StateIdx} {r : StateRecord} (k : StateRecord → Host.Outcome State Fault Refusal)
    (h : tableRead s.params i = some r) : withRecord s i k = k r := by
  simp [withRecord, h]

theorem withRecord_none {s : State} {i : StateIdx} (k : StateRecord → Host.Outcome State Fault Refusal)
    (h : tableRead s.params i = none) : withRecord s i k = .fault (.noRecord i) := by
  simp [withRecord, h]

/-- `takeEdge` moves the cursor along the edge the Input code chooses and issues the new State's levels; it goes on exactly
when the table has both records. -/
theorem takeEdge_some {s : State} {r n : StateRecord} (k : State → Host.Outcome State Fault Refusal)
    (hr : tableRead s.params s.cur = some r) (hn : tableRead s.params (recordNext r s.input) = some n) :
    takeEdge s k = k (setDrive n.left n.right { s with cur := recordNext r s.input }) := by
  simp [takeEdge, withRecord, hr, hn]

theorem takeEdge_next {s t : State} {k : State → Host.Outcome State Fault Refusal} (h : takeEdge s k = .next t) :
    ∃ r n, tableRead s.params s.cur = some r ∧ tableRead s.params (recordNext r s.input) = some n ∧
      k (setDrive n.left n.right { s with cur := recordNext r s.input }) = .next t := by
  obtain ⟨r, hr, h⟩ := withRecord_next h
  obtain ⟨n, hn, h⟩ := withRecord_next h
  exact ⟨r, n, hr, hn, h⟩

/-- What `paramsWf` checks, as propositions (40_transition_engine.md R81 to R85). -/
theorem paramsWf_iff (p : Params) : paramsWf p = true ↔
    2 ≤ p.nPhase ∧ p.nPhase ≤ 16 ∧ 1 ≤ p.nStates ∧ p.nStates ≤ 16 ∧
    p.startIdx.toNat < p.nStates ∧ p.termIdx.toNat < p.nStates ∧
    (∀ r ∈ p.table, recordTotal p.nStates r = true) ∧ (∀ r ∈ p.table, r.dwell < 2 ^ p.wElapsed) ∧
    ∃ r, tableRead p p.termIdx = some r ∧ terminalOk p.termIdx r = true := by
  unfold paramsWf
  cases h : tableRead p p.termIdx <;> simp [and_assoc]

theorem recordNext_lt {n : Nat} {r : StateRecord} (h : recordTotal n r = true) (c : InputCode) :
    (recordNext r c).toNat < n := by
  simp only [recordTotal, Bool.and_eq_true, decide_eq_true_eq] at h
  unfold recordNext
  split
  · omega
  · split
    · omega
    · split <;> omega

theorem recordNext_term {term : StateIdx} {r : StateRecord} (h : terminalOk term r = true) (c : InputCode) :
    recordNext r c = term := by
  simp only [terminalOk, Bool.and_eq_true, beq_iff_eq] at h
  unfold recordNext
  simp [h]

theorem tableRead_of_lt {p : Params} {i : StateIdx} (h : i.toNat < p.nStates) : ∃ r, tableRead p i = some r :=
  ⟨p.table[i.toNat], List.getElem?_eq_getElem h⟩

theorem tableRead_mem {p : Params} {i : StateIdx} {r : StateRecord} (h : tableRead p i = some r) : r ∈ p.table :=
  List.mem_of_getElem? h

theorem tableRead_lt {p : Params} {i : StateIdx} {r : StateRecord} (h : tableRead p i = some r) :
    i.toNat < p.nStates := by
  unfold tableRead at h
  exact (List.getElem?_eq_some_iff.mp h).1

/-- In a well-formed table every edge leads to a record (20_memory.md R44). -/
theorem tableRead_next {p : Params} (hp : paramsWf p = true) {i : StateIdx} {r : StateRecord}
    (h : tableRead p i = some r) (c : InputCode) : ∃ n, tableRead p (recordNext r c) = some n := by
  obtain ⟨-, -, -, -, -, -, ht, -⟩ := (paramsWf_iff p).mp hp
  exact tableRead_of_lt (recordNext_lt (ht r (tableRead_mem h)) c)

/-- The terminal State's record in a well-formed table: self-loops, motors at (0, 0) (40_transition_engine.md R82, R83). -/
theorem terminal_record {p : Params} (hp : paramsWf p = true) {r : StateRecord} (h : tableRead p p.termIdx = some r) :
    (∀ c, recordNext r c = p.termIdx) ∧ r.left = 0 ∧ r.right = 0 ∧ r.dwell < 2 ^ p.wElapsed := by
  obtain ⟨-, -, -, -, -, -, -, hd, r', hr', hok⟩ := (paramsWf_iff p).mp hp
  obtain rfl : r = r' := by rw [h] at hr'; exact Option.some.inj hr'
  refine ⟨recordNext_term hok, ?_, ?_, hd r (tableRead_mem h)⟩ <;>
    (simp only [terminalOk, Bool.and_eq_true, beq_iff_eq] at hok; simp [hok])

end Sys2Proof.Machine
end

