-- ==== Sys2Proof/Laws/PerInstr.lean ====
section
/-! SUPPORT. The per-instruction family `TableRow`: the selector word of every operation is a word of its row of
spec/opcode_table.json, and that word decodes to the operation. -/

namespace Sys2Proof.Laws

/-- The value of a selector word. -/
def wordBits : SelectorWord → Nat
  | .S p => p.toNat
  | .C c => c.toNat
  | .G g => g.toNat
  | .R r => r.toNat

/-- The width of a selector word's format (30_encoding.md R60). -/
def wordWidth : SelectorWord → Nat
  | .S _ => 4
  | .C _ => 3
  | .G _ => 2
  | .R _ => 1

/-- The width, match and mask of the operation's row, copied from spec/opcode_table.json. -/
def tableRow : Instr → Nat × Nat × Nat
  | .tickBegin => (4, 0x0, 0xF)
  | .tickEnd => (4, 0x1, 0xF)
  | .tickIdle23 _ => (4, 0x2, 0xE)
  | .tickIdle47 _ => (4, 0x4, 0xC)
  | .tickIdle8up _ => (4, 0x8, 0xE)
  | .clTest => (3, 0x0, 0x7)
  | .clRead => (3, 0x1, 0x7)
  | .clClear => (3, 0x2, 0x7)
  | .clRender => (3, 0x3, 0x7)
  | .clCmp => (3, 0x4, 0x7)
  | .clTrans => (3, 0x5, 0x7)
  | .clReset => (3, 0x6, 0x7)
  | .gatePress => (2, 0x0, 0x3)
  | .gateRelease => (2, 0x1, 0x3)
  | .reset => (1, 0x1, 0x1)

namespace TableRow

/-- At the table's N_PHASE = 10: the word has the row's width, its fixed bits are the row's, and it decodes back. -/
def Statement (i : Instr) : Prop :=
  i.wf 10 = true →
    wordWidth (encode i) = (tableRow i).1 ∧
    wordBits (encode i) &&& (tableRow i).2.2 = (tableRow i).2.1 ∧
    decodeTableWord (tableRow i).1 (wordBits (encode i)) = some i

theorem tickBegin : Statement .tickBegin := fun _ => by decide
theorem tickEnd : Statement .tickEnd := fun _ => by decide
theorem tickIdle23 (x : BitVec 1) : Statement (.tickIdle23 x) := by revert x; unfold Statement; decide
theorem tickIdle47 (x : BitVec 2) : Statement (.tickIdle47 x) := by revert x; unfold Statement; decide
theorem tickIdle8up (x : BitVec 3) : Statement (.tickIdle8up x) := by revert x; unfold Statement; decide
theorem clTest : Statement .clTest := fun _ => by decide
theorem clRead : Statement .clRead := fun _ => by decide
theorem clClear : Statement .clClear := fun _ => by decide
theorem clRender : Statement .clRender := fun _ => by decide
theorem clCmp : Statement .clCmp := fun _ => by decide
theorem clTrans : Statement .clTrans := fun _ => by decide
theorem clReset : Statement .clReset := fun _ => by decide
theorem gatePress : Statement .gatePress := fun _ => by decide
theorem gateRelease : Statement .gateRelease := fun _ => by decide
theorem reset : Statement .reset := fun _ => by decide

end TableRow

end Sys2Proof.Laws
end

