-- ==== Sys2Proof/Laws/Step.lean ====
section
/-! SUPPORT. What a step can be: the frame every operation shares, the inversion of `step`, and the runs over pin samples. -/

namespace Sys2Proof.Machine

/-- No operation touches the parameters or the pin samples. -/
theorem exec_next_frame {i : Instr} {s t : State} (h : exec i s = .next t) :
    t.params = s.params ∧ t.env = s.env ∧ t.drawIndex = s.drawIndex := by
  cases i <;> simp only [exec, execTickBegin, execTickEnd, execTickIdle23, execTickIdle47, execTickIdle8up, execClTest,
    execClRead, execClClear, execClReset, execGatePress, execGateRelease, execReset, Host.Outcome.next.injEq] at h
  case clRender => obtain ⟨r, -, h⟩ := withRecord_next h; cases h; simp
  case clCmp =>
    obtain ⟨r, -, h⟩ := withRecord_next h
    split at h
    · split at h
      · obtain ⟨_, _, -, -, h⟩ := takeEdge_next h; cases h; simp
      · cases h; simp
    · cases h; simp
  case clTrans => obtain ⟨_, _, -, -, h⟩ := takeEdge_next h; cases h; simp
  all_goals subst h
  case clRead => split <;> simp
  case gatePress => split <;> simp
  case gateRelease => split <;> simp
  all_goals simp

/-- The inversion of `step`: a dropped tick, or one operation. -/
theorem step_next {s t : State} (h : step s = .next t) :
    paramsWf s.params = true ∧
    ((selectWord s = none ∧ t = usePins s) ∨
     ∃ w i u, selectWord s = some w ∧ decode s.params.nPhase w = .ok i ∧ exec i s = .next u ∧ t = usePins u) := by
  unfold step at h
  split at h
  · refine ⟨‹_›, ?_⟩
    split at h
    · cases h; exact .inl ⟨‹_›, rfl⟩
    · split at h
      · rename_i w hw _ i hi
        cases hu : exec i s with
        | next u => rw [hu] at h; cases h; exact .inr ⟨w, i, u, hw, hi, hu, rfl⟩
        | fault f => rw [hu] at h; cases h
        | refused r => rw [hu] at h; cases h
      · cases h
  · cases h

/-- The inversion of `step` over the operation it runs. -/
theorem step_next_instr {s t : State} (h : step s = .next t) :
    (selectWord s = none ∧ nextInstr s = none ∧ t = usePins s) ∨
     ∃ i u, nextInstr s = some i ∧ exec i s = .next u ∧ t = usePins u := by
  obtain ⟨-, ⟨hs, rfl⟩ | ⟨w, i, u, hw, hi, hu, rfl⟩⟩ := step_next h
  · exact .inl ⟨hs, by simp [nextInstr, hs], rfl⟩
  · exact .inr ⟨i, u, by simp [nextInstr, hw, hi], hu, rfl⟩

theorem step_of_instr {s : State} {i : Instr} (hp : paramsWf s.params = true) (h : nextInstr s = some i) :
    step s = afterStep (exec i s) := by
  unfold nextInstr at h
  unfold step
  simp only [hp, ↓reduceIte]
  cases hw : selectWord s with
  | none => simp [hw] at h
  | some w =>
    simp only [hw] at h ⊢
    cases hd : decode s.params.nPhase w with
    | error e => simp [hd] at h
    | ok k => simp only [hd, Option.some.injEq] at h; subst h; rfl

/-- An operation depends on the pin samples through the current one alone. -/
theorem exec_env (i : Instr) (s : State) (p : Pins) (e e' : List Pins) :
    exec i { s with env := p :: e' } =
      match exec i { s with env := p :: e } with
      | .next t => .next { t with env := p :: e' }
      | .fault f => .fault f
      | .refused r => .refused r := by
  cases i <;> simp only [exec, execTickBegin, execTickEnd, execTickIdle23, execTickIdle47, execTickIdle8up, execClTest,
    execClRead, execClClear, execClReset, execGatePress, execGateRelease, execReset, execClRender, execClCmp, execClTrans,
    takeEdge, withRecord, sensorEnd, startIn, pinsNow, List.headD_cons, dwellExpired]
  case clRead => split <;> rfl
  case clRender => split <;> rfl
  case clCmp =>
    cases hr : tableRead s.params s.cur with
    | none => rfl
    | some r =>
      by_cases hd : r.dwell ≤ s.elapsed
      · cases ha : s.params.atomicDwellReset
        · simp [hd, goTo]
        · cases hn : tableRead s.params (recordNext r s.input) <;> simp [hd, hn, goTo, restartDwell, setDrive]
      · simp [hd, goTo]
  case clTrans =>
    cases hr : tableRead s.params s.cur with
    | none => rfl
    | some r => cases hn : tableRead s.params (recordNext r s.input) <;> simp [hn, goTo, setDrive]
  case gatePress => by_cases h : p.startIn <;> simp [h]
  case gateRelease => by_cases h : p.startIn <;> simp [h]
  all_goals rfl

theorem selectWord_env (s : State) (p : Pins) (e e' : List Pins) :
    selectWord { s with env := p :: e' } = selectWord { s with env := p :: e } := rfl

/-- A step depends on the pin samples through the current one alone; the rest it leaves for the next steps. -/
theorem step_env (s : State) (p : Pins) (e e' : List Pins) :
    step { s with env := p :: e' } =
      match step { s with env := p :: e } with
      | .next t => .next { t with env := e' }
      | .fault f => .fault f
      | .refused r => .refused r := by
  unfold step
  simp only [selectWord_env s p e e']
  split
  · split
    · rfl
    · split
      · rw [exec_env _ s p e e']
        split <;> simp_all [afterStep, usePins]
      · rfl
  · rfl

/-- One step under a given pin sample, put before the ones already decided. -/
def stepPins (p : Pins) (s : State) : Host.Outcome State Fault Refusal := step { s with env := p :: s.env }

theorem step_next_env {s t : State} (h : step s = .next t) : t.env = s.env.tail ∧ t.params = s.params := by
  obtain ⟨-, ⟨-, rfl⟩ | ⟨w, i, u, -, -, hu, rfl⟩⟩ := step_next h
  · simp
  · obtain ⟨h1, h2, -⟩ := exec_next_frame hu; simp [h1, h2]

theorem stepPins_env {p : Pins} {s t : State} (h : stepPins p s = .next t) : t.env = s.env ∧ t.params = s.params := by
  obtain ⟨h1, h2⟩ := step_next_env h; exact ⟨h1, h2⟩

@[simp] theorem runPins_nil (s : State) : runPins [] s = .next s := rfl

theorem core_run_succ (k : Nat) (s : State) :
    Sys2Proof.core.run (k + 1) s =
      match step s with
      | .next t => Sys2Proof.core.run k t
      | .fault f => .fault f
      | .refused r => .refused r := by
  have e : Sys2Proof.core.step s = step s := rfl
  simp only [Host.Core.run]
  cases h : step s <;> rw [h] at e <;> rw [e]

theorem runPins_cons (p : Pins) (ps : List Pins) (s : State) :
    runPins (p :: ps) s =
      match stepPins p s with
      | .next t => runPins ps t
      | .fault f => .fault f
      | .refused r => .refused r := by
  unfold runPins stepPins
  rw [List.length_cons, core_run_succ, List.cons_append, step_env s p s.env (ps ++ s.env)]
  cases h : step { s with env := p :: s.env } with
  | next t => simp only; rw [show t.env = s.env from (step_next_env h).1]
  | fault f => rfl
  | refused r => rfl

theorem runPins_append (ps qs : List Pins) (s : State) :
    runPins (ps ++ qs) s =
      match runPins ps s with
      | .next t => runPins qs t
      | .fault f => .fault f
      | .refused r => .refused r := by
  induction ps generalizing s with
  | nil => rfl
  | cons p ps ih =>
    rw [List.cons_append, runPins_cons, runPins_cons]
    cases stepPins p s <;> simp [ih]

/-- The operations of a run whose first step goes on. -/
theorem opsOver_cons {p : Pins} {s t : State} (ps : List Pins) (h : stepPins p s = .next t) :
    opsOver (p :: ps) s = (nextInstr { s with env := p :: s.env }).toList ++ opsOver ps t := by
  unfold stepPins at h; simp only [opsOver, h]

/-- Where the atomic CL.CMP takes the edge the default machine has two Control samples more. -/
theorem withTransitionSteps_edge {p : Pins} {s t : State} (ps : List Pins) (h : stepPins p s = .next t)
    (hi : nextInstr { s with env := p :: s.env } = some .clCmp) (hc : cmpTakesEdge s = true) :
    withTransitionSteps (p :: ps) s = p :: controlPins false :: controlPins false :: withTransitionSteps ps t := by
  unfold stepPins at h; simp only [withTransitionSteps, h]; rw [if_pos ⟨hi, hc⟩]

/-- After every other step it has the same samples. -/
theorem withTransitionSteps_other {p : Pins} {s t : State} (ps : List Pins) (h : stepPins p s = .next t)
    (hn : ¬ (nextInstr { s with env := p :: s.env } = some .clCmp ∧ cmpTakesEdge s = true)) :
    withTransitionSteps (p :: ps) s = p :: withTransitionSteps ps t := by
  unfold stepPins at h; simp only [withTransitionSteps, h]; rw [if_neg hn]

/-- A property that every step under the given samples keeps holds after the run. -/
theorem runPins_keeps {P : State → Prop} {Q : Pins → Prop}
    (hstep : ∀ p s t, Q p → P s → stepPins p s = .next t → P t) {ins : List Pins} {s t : State}
    (hQ : ∀ p ∈ ins, Q p) (hP : P s) (h : runPins ins s = .next t) : P t := by
  induction ins generalizing s with
  | nil => cases h; exact hP
  | cons p ps ih =>
    rw [runPins_cons] at h
    cases hs : stepPins p s with
    | next u =>
      rw [hs] at h
      exact ih (fun q hq => hQ q (List.mem_cons_of_mem _ hq)) (hstep p s u (hQ p (List.mem_cons_self ..)) hP hs) h
    | fault f => rw [hs] at h; cases h
    | refused r => rw [hs] at h; cases h

/-- What an operation run by a step says of the selectors and the pins (30_encoding.md R60). -/
theorem nextInstr_some {s : State} {i : Instr} (h : nextInstr s = some i) :
    (i = .reset ∧ (pinsNow s).rst = true) ∨
    ((pinsNow s).rst = false ∧ (pinsNow s).tick = true ∧ s.gate = .run ∧ decodeS s.params.nPhase s.phase = .ok i) ∨
    ((pinsNow s).rst = false ∧ (pinsNow s).tick = false ∧ s.gate = .run ∧ decodeC (clPcWord s.clPc) = .ok i) ∨
    ((pinsNow s).rst = false ∧ (pinsNow s).tick = false ∧ decodeG (gateWord s.gate) = .ok i) := by
  unfold nextInstr selectWord at h
  cases hr : (pinsNow s).rst <;> cases ht : (pinsNow s).tick <;> cases hg : s.gate <;>
    simp_all [decode, decodeR, decodeG, gateWord] <;> (split at h <;> simp_all)

/-- What an operation of the Sampler does (41_sampler.md R90 to R92): it counts the tick; only TICK.END publishes a sample, only
TICK.BEGIN asks for one. -/
theorem sampler_next {i : Instr} {s t : State} (hi : isSampler i = true) (h : exec i s = .next t) :
    ∃ sa sr bc, t = countTick { s with sample := sa, sampleReady := sr, beginCount := bc } ∧
    (i = .tickEnd → sa = sensorEnd s ∧ sr = true) ∧
    (i ≠ .tickEnd → sa = s.sample ∧ sr = s.sampleReady) ∧
    (i = .tickBegin → bc = s.beginCount + 1) ∧ (i ≠ .tickBegin → bc = s.beginCount) := by
  cases i <;> simp [isSampler, isTickIdle] at hi <;> cases h
  · exact ⟨s.sample, s.sampleReady, _, rfl, by simp⟩
  · exact ⟨_, true, s.beginCount, rfl, by simp⟩
  all_goals exact ⟨s.sample, s.sampleReady, s.beginCount, rfl, by simp⟩


/-- What an operation of the Control Loop does, by the value of `cl_pc` (42_control_loop.md R100 to R107, R109). -/
theorem loop_cases {i : Instr} {s u : State} (hd : decodeC (clPcWord s.clPc) = .ok i) (hu : exec i s = .next u) :
    (s.clPc = .test ∧ i = .clTest ∧ u = goTo (if s.sampleReady then .read else .render) s) ∨
    (s.clPc = .read ∧ i = .clRead ∧ u = goTo .clear (if isSentinel s.sample then raiseSensorLost s else { s with input := inputOf s.sample })) ∨
    (s.clPc = .clear ∧ i = .clClear ∧ u = goTo .render (clearSampleReady s)) ∨
    (s.clPc = .render ∧ i = .clRender ∧ ∃ r, tableRead s.params s.cur = some r ∧ u = goTo .cmp (renderIndicators r s)) ∨
    (s.clPc = .cmp ∧ i = .clCmp ∧ ∃ r, tableRead s.params s.cur = some r ∧
       ((s.elapsed < r.dwell ∧ u = goTo .test s) ∨ (r.dwell ≤ s.elapsed ∧ s.params.atomicDwellReset = false ∧ u = goTo .trans s) ∨
        (r.dwell ≤ s.elapsed ∧ s.params.atomicDwellReset = true ∧ ∃ n, tableRead s.params (recordNext r s.input) = some n ∧
          u = goTo .test (restartDwell (setDrive n.left n.right { s with cur := recordNext r s.input }))))) ∨
    (s.clPc = .trans ∧ i = .clTrans ∧ ∃ r n, tableRead s.params s.cur = some r ∧ tableRead s.params (recordNext r s.input) = some n ∧
       u = goTo .reset (setDrive n.left n.right { s with cur := recordNext r s.input })) ∨
    (s.clPc = .reset ∧ i = .clReset ∧ u = goTo .test (restartDwell s)) := by
  obtain hc | hc | hc | hc | hc | hc | hc : s.clPc = .test ∨ s.clPc = .read ∨ s.clPc = .clear ∨ s.clPc = .render ∨ s.clPc = .cmp ∨ s.clPc = .trans ∨ s.clPc = .reset := by
    cases s.clPc <;> simp
  all_goals rw [hc] at hd; cases hd; simp only [hc]; simp only [reduceCtorEq, false_and, false_or, or_false, true_and]
  · cases hu; rfl
  · cases hu; simp only [hc]
  · cases hu; rfl
  · obtain ⟨r, hr, h⟩ := withRecord_next hu; cases h; exact ⟨r, hr, rfl⟩
  · obtain ⟨r, hr, h⟩ := withRecord_next hu
    refine ⟨r, hr, ?_⟩
    by_cases hd : r.dwell ≤ s.elapsed
    · right
      cases ha : s.params.atomicDwellReset
      · left; simp [dwellExpired, hd, ha] at h; exact ⟨hd, rfl, h.symm⟩
      · right; simp [dwellExpired, hd, ha] at h
        obtain ⟨r', n, hr', hn, h⟩ := takeEdge_next h
        obtain rfl : r = r' := by rw [hr] at hr'; exact Option.some.inj hr'
        cases h; exact ⟨hd, rfl, n, hn, rfl⟩
    · left; simp [dwellExpired, hd] at h; exact ⟨by omega, h.symm⟩
  · simp only [exec, execClTrans] at hu
    obtain ⟨r', n, hr', hn, h⟩ := takeEdge_next hu
    cases h; exact ⟨r', n, hr', hn, rfl⟩
  · cases hu; rfl


/-- Everything a step can be: a dropped tick, RESET, or one operation of the Sampler, the Control Loop or the start gate, with what
the pins and the selectors then are. -/
theorem step_cases {s t : State} (h : step s = .next t) :
    paramsWf s.params = true ∧
    ((nextInstr s = none ∧ (pinsNow s).rst = false ∧ (pinsNow s).tick = true ∧ s.gate ≠ .run ∧ t = usePins s) ∨
     (nextInstr s = some .reset ∧ (pinsNow s).rst = true ∧ t = usePins (resetRegisters s)) ∨
     (∃ i u, nextInstr s = some i ∧ isSampler i = true ∧ (pinsNow s).rst = false ∧ (pinsNow s).tick = true ∧ s.gate = .run ∧
        decodeS s.params.nPhase s.phase = .ok i ∧ exec i s = .next u ∧ t = usePins u) ∨
     (∃ i u, nextInstr s = some i ∧ isControlLoop i = true ∧ (pinsNow s).rst = false ∧ (pinsNow s).tick = false ∧ s.gate = .run ∧
        decodeC (clPcWord s.clPc) = .ok i ∧ exec i s = .next u ∧ t = usePins u) ∨
     (nextInstr s = some .gatePress ∧ (pinsNow s).rst = false ∧ (pinsNow s).tick = false ∧ s.gate = .waitPress ∧
        t = usePins (if startIn s then { s with gate := .waitRelease } else s)) ∨
     (nextInstr s = some .gateRelease ∧ (pinsNow s).rst = false ∧ (pinsNow s).tick = false ∧ s.gate = .waitRelease ∧
        t = usePins (if startIn s then s else { s with gate := .run }))) := by
  have hp := (step_next h).1
  refine ⟨hp, ?_⟩
  obtain ⟨hs, hn, rfl⟩ | ⟨i, u, hi, hu, rfl⟩ := step_next_instr h
  · left
    unfold selectWord at hs
    cases hr : (pinsNow s).rst <;> cases ht : (pinsNow s).tick <;> cases hg : s.gate <;> simp_all
  · right
    obtain ⟨rfl, hr⟩ | ⟨hr, ht, hg, hd⟩ | ⟨hr, ht, hg, hd⟩ | ⟨hr, ht, hd⟩ := nextInstr_some hi
    · left; cases hu; exact ⟨hi, hr, rfl⟩
    · right; left
      refine ⟨i, u, hi, ?_, hr, ht, hg, hd, hu, rfl⟩
      unfold decodeS at hd
      (repeat' split at hd) <;> cases hd <;> rfl
    · right; right; left
      refine ⟨i, u, hi, ?_, hr, ht, hg, hd, hu, rfl⟩
      unfold decodeC at hd
      (repeat' split at hd) <;> cases hd <;> rfl
    · right; right; right
      cases hg : s.gate
      · left; rw [hg] at hd; cases hd; cases hu; exact ⟨hi, hr, ht, rfl, rfl⟩
      · right; rw [hg] at hd; cases hd; cases hu; exact ⟨hi, hr, ht, rfl, rfl⟩
      · rw [hg] at hd; cases hd


/-- Closing over the fields the closed gate leaves free. -/
theorem closedGate_of {s : State} (h : ClosedGateAtReset s) (g : Gate) (e : List Pins) (d : Nat) :
    ClosedGateAtReset { s with gate := g, env := e, drawIndex := d } := by
  unfold ClosedGateAtReset at *
  rw [h]; rfl

/-- The pin samples take no part in the invariant. -/
theorem goodState_env {s : State} (h : GoodState s) (e : List Pins) : GoodState { s with env := e } := by
  obtain ⟨hp, hc, hph, he, hg, hr, ha⟩ := h
  exact ⟨hp, hc, hph, he, fun h => closedGate_of (hg h) s.gate e s.drawIndex, hr, ha⟩

/-- A phase below N_PHASE selects an operation of the Sampler (30_encoding.md R66). -/
theorem decodeS_ok {n : Nat} {p : PhaseWord} (h : p.toNat < n) :
    ∃ i, decodeS n p = .ok i ∧ isSampler i = true ∧ encode i = .S p := by
  unfold decodeS
  rw [if_neg (by omega)]
  clear h
  split
  · subst p; exact ⟨_, rfl, rfl, rfl⟩
  split
  · subst p; exact ⟨_, rfl, rfl, rfl⟩
  split
  · exact ⟨_, rfl, rfl, by revert p; decide⟩
  split
  · exact ⟨_, rfl, rfl, by revert p; decide⟩
  · exact ⟨_, rfl, rfl, by revert p; decide⟩

/-- Every value of `cl_pc` selects an operation of the Control Loop (30_encoding.md R67). -/
theorem decodeC_ok (c : ClPc) :
    ∃ i, decodeC (clPcWord c) = .ok i ∧ isControlLoop i = true ∧ encode i = .C (clPcWord c) := by
  cases c <;> exact ⟨_, rfl, rfl, rfl⟩

/-- In a good state every operation runs. -/
theorem exec_ok {s : State} (hI : GoodState s) (i : Instr) : ∃ t, exec i s = .next t := by
  obtain ⟨r, hr⟩ := tableRead_of_lt hI.2.1
  obtain ⟨n, hn⟩ := tableRead_next hI.1 hr s.input
  cases i <;> try exact ⟨_, rfl⟩
  · exact ⟨_, withRecord_some _ hr⟩
  · simp only [exec, execClCmp]
    rw [withRecord_some _ hr]
    split
    · split
      · rw [takeEdge_some _ hr hn]; exact ⟨_, rfl⟩
      · exact ⟨_, rfl⟩
    · exact ⟨_, rfl⟩
  · simp only [exec, execClTrans]; rw [takeEdge_some _ hr hn]; exact ⟨_, rfl⟩

/-! ### One step under given pins, with the gate open -/

theorem stepPins_loop {s : State} {p : Pins} {i : Instr} (hp : paramsWf s.params = true) (hg : s.gate = .run)
    (hc : ControlPins p) (hd : decodeC (clPcWord s.clPc) = .ok i) :
    stepPins p s = afterStep (exec i { s with env := p :: s.env }) := by
  obtain ⟨hr, ht⟩ := hc
  simp [stepPins, step, hp, selectWord, pinsNow, hr, ht, hg, decode, hd]

theorem stepPins_clTest {s : State} {p : Pins} (hp : paramsWf s.params = true) (hg : s.gate = .run) (hc : ControlPins p)
    (h : s.clPc = .test) :
    stepPins p s = .next { s with clPc := if s.sampleReady then .read else .render, drawIndex := s.drawIndex + 1 } := by
  rw [stepPins_loop hp hg hc (i := .clTest) (by rw [h]; rfl)]; rfl

theorem stepPins_clRead {s : State} {p : Pins} (hp : paramsWf s.params = true) (hg : s.gate = .run) (hc : ControlPins p)
    (h : s.clPc = .read) :
    stepPins p s = .next { s with
      cur := if isSentinel s.sample then s.params.termIdx else s.cur
      input := if isSentinel s.sample then s.input else inputOf s.sample
      clPc := .clear, drawIndex := s.drawIndex + 1 } := by
  rw [stepPins_loop hp hg hc (i := .clRead) (by rw [h]; rfl)]
  simp only [exec, execClRead]
  cases isSentinel s.sample <;> rfl

theorem stepPins_clClear {s : State} {p : Pins} (hp : paramsWf s.params = true) (hg : s.gate = .run) (hc : ControlPins p)
    (h : s.clPc = .clear) :
    stepPins p s = .next { s with sampleReady := false, clPc := .render, drawIndex := s.drawIndex + 1 } := by
  rw [stepPins_loop hp hg hc (i := .clClear) (by rw [h]; rfl)]; rfl

theorem stepPins_clRender {s : State} {p : Pins} {r : StateRecord} (hp : paramsWf s.params = true) (hg : s.gate = .run)
    (hc : ControlPins p) (h : s.clPc = .render) (hr : tableRead s.params s.cur = some r) :
    stepPins p s = .next { s with ind0 := r.ind0, ind1 := r.ind1, clPc := .cmp, drawIndex := s.drawIndex + 1 } := by
  rw [stepPins_loop hp hg hc (i := .clRender) (by rw [h]; rfl)]
  simp only [exec, execClRender]
  rw [withRecord_some (s := { s with env := p :: s.env }) _ hr]; rfl

theorem stepPins_clCmp_before {s : State} {p : Pins} {r : StateRecord} (hp : paramsWf s.params = true) (hg : s.gate = .run)
    (hc : ControlPins p) (h : s.clPc = .cmp) (hr : tableRead s.params s.cur = some r) (hd : s.elapsed < r.dwell) :
    stepPins p s = .next { s with clPc := .test, drawIndex := s.drawIndex + 1 } := by
  rw [stepPins_loop hp hg hc (i := .clCmp) (by rw [h]; rfl)]
  simp only [exec, execClCmp]
  rw [withRecord_some (s := { s with env := p :: s.env }) _ hr]
  simp [dwellExpired, Nat.not_le.mpr hd, goTo, afterStep, usePins]

theorem stepPins_clCmp_expired {s : State} {p : Pins} {r : StateRecord} (hp : paramsWf s.params = true) (hg : s.gate = .run)
    (hc : ControlPins p) (h : s.clPc = .cmp) (ha : s.params.atomicDwellReset = false)
    (hr : tableRead s.params s.cur = some r) (hd : r.dwell ≤ s.elapsed) :
    stepPins p s = .next { s with clPc := .trans, drawIndex := s.drawIndex + 1 } := by
  rw [stepPins_loop hp hg hc (i := .clCmp) (by rw [h]; rfl)]
  simp only [exec, execClCmp]
  rw [withRecord_some (s := { s with env := p :: s.env }) _ hr]
  simp [dwellExpired, hd, ha, goTo, afterStep, usePins]

theorem stepPins_clCmp_atomic {s : State} {p : Pins} {r n : StateRecord} (hp : paramsWf s.params = true)
    (hg : s.gate = .run) (hc : ControlPins p) (h : s.clPc = .cmp) (ha : s.params.atomicDwellReset = true)
    (hr : tableRead s.params s.cur = some r) (hn : tableRead s.params (recordNext r s.input) = some n)
    (hd : r.dwell ≤ s.elapsed) :
    stepPins p s = .next { s with
      cur := recordNext r s.input, motorL := n.left, motorR := n.right, driveCount := s.driveCount + 1, elapsed := 0
      clPc := .test, drawIndex := s.drawIndex + 1 } := by
  rw [stepPins_loop hp hg hc (i := .clCmp) (by rw [h]; rfl)]
  simp only [exec, execClCmp]
  rw [withRecord_some (s := { s with env := p :: s.env }) _ hr]
  simp only [dwellExpired, hd, ha, decide_true, if_true]
  rw [takeEdge_some (s := { s with env := p :: s.env }) _ hr hn]; rfl

theorem stepPins_clTrans {s : State} {p : Pins} {r n : StateRecord} (hp : paramsWf s.params = true) (hg : s.gate = .run)
    (hc : ControlPins p) (h : s.clPc = .trans) (hr : tableRead s.params s.cur = some r)
    (hn : tableRead s.params (recordNext r s.input) = some n) :
    stepPins p s = .next { s with
      cur := recordNext r s.input, motorL := n.left, motorR := n.right, driveCount := s.driveCount + 1
      clPc := .reset, drawIndex := s.drawIndex + 1 } := by
  rw [stepPins_loop hp hg hc (i := .clTrans) (by rw [h]; rfl)]
  simp only [exec, execClTrans]
  rw [takeEdge_some (s := { s with env := p :: s.env }) _ hr hn]; rfl

theorem stepPins_clReset {s : State} {p : Pins} (hp : paramsWf s.params = true) (hg : s.gate = .run) (hc : ControlPins p)
    (h : s.clPc = .reset) :
    stepPins p s = .next { s with elapsed := 0, clPc := .test, drawIndex := s.drawIndex + 1 } := by
  rw [stepPins_loop hp hg hc (i := .clReset) (by rw [h]; rfl)]; rfl

/-- A tick with the gate open: `phase` and `elapsed` move on, and at most the sample, its flag and `begin_count` change. -/
theorem stepPins_tick {s : State} {p : Pins} (hI : GoodState s) (hg : s.gate = .run) (ht : TickPins p) :
    ∃ sa sr bc, stepPins p s = .next { s with
        elapsed := satInc s.params.wElapsed s.elapsed, phase := incMod s.params.nPhase s.phase
        sample := sa, sampleReady := sr, beginCount := bc, drawIndex := s.drawIndex + 1 } ∧
      (s.phase = 1 → sa = p.sensorData ∧ sr = true) ∧ (s.phase ≠ 1 → sa = s.sample ∧ sr = s.sampleReady) := by
  obtain ⟨hr, ht⟩ := ht
  obtain ⟨i, hi, hs, he⟩ := decodeS_ok hI.2.2.1
  have hend : i = .tickEnd ↔ s.phase = 1 := by
    constructor
    · rintro rfl; simp [encode] at he; exact he.symm
    · intro h
      have hn := hI.2.2.1
      rw [h] at hi hn
      unfold decodeS at hi
      rw [if_neg (by omega)] at hi
      cases hi; rfl
  have hst : stepPins p s = afterStep (exec i { s with env := p :: s.env }) := by
    simp [stepPins, step, hI.1, selectWord, pinsNow, hr, ht, hg, decode, hi]
  obtain ⟨u, hu⟩ := exec_ok (goodState_env hI (p :: s.env)) i
  obtain ⟨sa, sr, bc, rfl, h1, h2, -⟩ := sampler_next hs hu
  refine ⟨sa, sr, bc, by rw [hst, hu]; rfl, fun h => ?_, fun h => ?_⟩
  · exact h1 (hend.mpr h)
  · exact h2 (fun hh => h (hend.mp hh))

end Sys2Proof.Machine
end

