-- ==== Sys2Proof/Tests/Slice0.lean ====
section
/-! SUPPORT. The model's own tests: the smoke test of the well-formedness checks, the words of spec/opcode_table.json written out,
vectors of 95_test_vectors.md (their numbers stand in the names), and for each statement with hypotheses a state and operands
that meet them. -/

namespace Sys2Proof.Tests

open Sys2Proof Sys2Proof.Machine

/-! ### A table and states to test on -/

/-- The records of table TA (95_test_vectors.md P1): Start = 0, A = 1, B = 2, Stop = 3. -/
def recStart : StateRecord :=
  { left := 2000, right := 2000, ind0 := false, ind1 := true, dwell := 500, next0 := 2, next1 := 1, next2 := 2, next3 := 0 }
def recA : StateRecord :=
  { left := 2000, right := 1000, ind0 := true, ind1 := false, dwell := 20, next0 := 0, next1 := 1, next2 := 2, next3 := 0 }
def recB : StateRecord :=
  { left := 1000, right := 2000, ind0 := true, ind1 := true, dwell := 20, next0 := 0, next1 := 1, next2 := 2, next3 := 0 }
def recStop : StateRecord :=
  { left := 0, right := 0, ind0 := false, ind1 := false, dwell := 50, next0 := 3, next1 := 3, next2 := 3, next3 := 3 }

def paramsTA : Params :=
  { nPhase := 10, wElapsed := 16, atomicDwellReset := false, inputReset := 0, startIdx := 0, termIdx := 3,
    table := [recStart, recA, recB, recStop] }

/-- The block of table TA with the gate just opened. -/
def opened : State := { State.initial paramsTA with gate := .run }

/-- The same block built with ATOMIC_DWELL_RESET. -/
def openedAtomic : State := { opened with params := { paramsTA with atomicDwellReset := true } }

/-- A pin sample with a tick, one without, one with rst. -/
def tickPins (b : Byte) : Pins := { rst := false, tick := true, startIn := false, sensorData := b }
def noPins : Pins := { rst := false, tick := false, startIn := false, sensorData := 0 }
def pressPins : Pins := { noPins with startIn := true }
def rstPins : Pins := { noPins with rst := true }

/-- The state with one decided pin sample. -/
def under (p : Pins) (s : State) : State := { s with env := [p] }

def nextOf : Host.Outcome State Fault Refusal → Option State
  | .next s => some s
  | .fault _ => none
  | .refused _ => none

/-! ### Well-formedness refuses -/

theorem test_wf_phase_beyond : (Instr.tickIdle8up 2).wf 10 = false := by decide
theorem test_wf_phase_last : (Instr.tickIdle8up 1).wf 10 = true := by decide
theorem test_wf_no_idle_at_two : (Instr.tickIdle23 0).wf 2 = false := by decide
theorem test_WF1 : paramsWf paramsTA = true := by decide
theorem test_WF2 :
    paramsWf { paramsTA with table := [recStart, { recA with next2 := 4 }, recB, recStop] } = false := by decide
theorem test_WF3 : paramsWf { paramsTA with termIdx := 2 } = false := by decide
theorem test_WF4 :
    paramsWf { paramsTA with table := [recStart, recA, recB, { recStop with right := 1000 }] } = false := by decide
theorem test_WF5 : paramsWf { paramsTA with wElapsed := 8 } = false := by decide
theorem test_WF6 : paramsWf Params.smallest = true := by decide
/-- R84. -/
theorem test_wf_start : paramsWf { paramsTA with startIdx := 4 } = false := by decide
/-- 00_scope.md R4: N_PHASE is 2 or more. -/
theorem test_wf_nPhase : paramsWf { paramsTA with nPhase := 1 } = false := by decide

/-! ### Decoding, words written out bit by bit (30_encoding.md section 5, 95_test_vectors.md section 2.4) -/

theorem test_decode_tickBegin : decodeTableWord 4 0b0000 = some .tickBegin := by decide
theorem test_decode_tickEnd : decodeTableWord 4 0b0001 = some .tickEnd := by decide
theorem test_decode_tickIdle23 : decodeTableWord 4 0b0011 = some (.tickIdle23 0b1) := by decide
theorem test_decode_tickIdle47 : decodeTableWord 4 0b0110 = some (.tickIdle47 0b10) := by decide
theorem test_decode_tickIdle8up : decodeTableWord 4 0b1001 = some (.tickIdle8up 0b001) := by decide
theorem test_decode_phase_reserved : decodeTableWord 4 0b1010 = none := by decide
theorem test_decode_clTest : decodeTableWord 3 0b000 = some .clTest := by decide
theorem test_decode_clRead : decodeTableWord 3 0b001 = some .clRead := by decide
theorem test_decode_clClear : decodeTableWord 3 0b010 = some .clClear := by decide
theorem test_decode_clRender : decodeTableWord 3 0b011 = some .clRender := by decide
theorem test_decode_clCmp : decodeTableWord 3 0b100 = some .clCmp := by decide
theorem test_decode_clTrans : decodeTableWord 3 0b101 = some .clTrans := by decide
theorem test_decode_clReset : decodeTableWord 3 0b110 = some .clReset := by decide
theorem test_decode_clPc_reserved : decodeTableWord 3 0b111 = none := by decide
theorem test_decode_gatePress : decodeTableWord 2 0b00 = some .gatePress := by decide
theorem test_decode_gateRelease : decodeTableWord 2 0b01 = some .gateRelease := by decide
theorem test_decode_gate_run : decodeTableWord 2 0b10 = none := by decide
theorem test_decode_gate_reserved : decodeTableWord 2 0b11 = none := by decide
theorem test_decode_reset : decodeTableWord 1 0b1 = some .reset := by decide
theorem test_decode_rst_low : decodeTableWord 1 0b0 = none := by decide
/-- A whole byte names no format; it is read as notes/assumptions/10.md says. -/
theorem test_decode_bytes :
    (List.range 11).map (decodeTableWord 8) =
      [some .gatePress, some .reset, some .clClear, some .clRender, some .clCmp, some .clTrans, some .clReset,
       some (.tickIdle47 3), some (.tickIdle8up 0), some (.tickIdle8up 1), none] := by decide

/-- The start record's ROM word (95_test_vectors.md section 2.4). -/
theorem test_rom_start : packRecord 16 recStart = 0x0084807D207D007D0#66 := by decide
/-- The ROM word of B (95_test_vectors.md P1). -/
theorem test_rom_B : unpackRecord 16 0x00840005307D003E8#66 = recB := by decide

/-! ### One step each -/

theorem test_S1 :
    (nextOf (step (under (tickPins 0) opened))).map (fun t => (t.phase, t.elapsed, t.beginCount, t.sampleReady)) =
      some (1, 1, 1, false) := by decide
theorem test_S7 :
    (nextOf (step (under (tickPins 0) { opened with elapsed := 0xFFFE }))).map (fun t => (t.phase, t.elapsed)) =
      some (1, 0xFFFF) := by decide
theorem test_S2 :
    (nextOf (step (under (tickPins 0x08) { opened with phase := 1, elapsed := 1 }))).map
      (fun t => (t.phase, t.elapsed, t.sampleReady, t.sample)) = some (2, 2, true, 0x08) := by decide
theorem test_S5 :
    (nextOf (step (under (tickPins 0xFF) { opened with phase := 1, elapsed := 41, sample := 0x08, sampleReady := true }))).map
      (fun t => (t.phase, t.elapsed, t.sampleReady, t.sample)) = some (2, 42, true, 0xFF) := by decide
theorem test_S3 :
    (nextOf (step (under (tickPins 0) { opened with phase := 2, elapsed := 2, sample := 0x08, sampleReady := true }))).map
      (fun t => (t.phase, t.elapsed, t.sampleReady, t.sample)) = some (3, 3, true, 0x08) := by decide
theorem test_S8 :
    (nextOf (step (under (tickPins 0) { opened with phase := 5, elapsed := 7 }))).map (fun t => (t.phase, t.elapsed)) =
      some (6, 8) := by decide
theorem test_S4 :
    (nextOf (step (under (tickPins 0) { opened with phase := 9, elapsed := 499 }))).map (fun t => (t.phase, t.elapsed)) =
      some (0, 500) := by decide
theorem test_S6 :
    (nextOf (step (under (tickPins 0) { opened with phase := 9, elapsed := 0xFFFF }))).map (fun t => (t.phase, t.elapsed)) =
      some (0, 0xFFFF) := by decide
theorem test_S9 :
    nextOf (step (under (tickPins 0xFF) (State.initial paramsTA))) = some { State.initial paramsTA with drawIndex := 1 } := by
  decide

theorem test_T1 : (nextOf (step (under noPins opened))).map (fun t => t.clPc) = some .render := by decide
theorem test_T2 :
    (nextOf (step (under noPins { opened with sampleReady := true }))).map (fun t => t.clPc) = some .read := by decide
/-- All bits set but bit 3: bit 4 is the more significant bit of the code. -/
theorem test_R7 :
    (nextOf (step (under noPins { opened with clPc := .read, sampleReady := true, sample := 0xF7 }))).map
      (fun t => (t.cur, t.input, t.clPc)) = some (0, 2, .clear) := by decide
theorem test_R10 :
    (nextOf (step (under noPins { opened with clPc := .read, sampleReady := true, sample := 0xFF, cur := 2, input := 2 }))).map
      (fun t => (t.cur, t.input, t.clPc, t.sampleReady)) = some (3, 2, .clear, true) := by decide
theorem test_clear :
    (nextOf (step (under noPins { opened with clPc := .clear, sampleReady := true }))).map
      (fun t => (t.sampleReady, t.clPc)) = some (false, .render) := by decide
theorem test_render :
    (nextOf (step (under noPins { opened with clPc := .render, ind0 := true }))).map
      (fun t => (t.ind0, t.ind1, t.clPc)) = some (false, true, .cmp) := by decide
theorem test_C1 :
    (nextOf (step (under noPins { opened with clPc := .cmp, elapsed := 499 }))).map (fun t => t.clPc) = some .test := by
  decide
theorem test_C2 :
    (nextOf (step (under noPins { opened with clPc := .cmp, elapsed := 500 }))).map (fun t => t.clPc) = some .trans := by
  decide
/-- 95_test_vectors.md section 2.2, the atomic CL.CMP. -/
theorem test_atomic_cmp :
    (nextOf (step (under noPins { openedAtomic with clPc := .cmp, elapsed := 500, input := 1 }))).map
      (fun t => (t.cur, t.motorL, t.motorR, t.elapsed, t.clPc)) = some (1, 2000, 1000, 0, .test) := by decide
theorem test_X1 :
    (nextOf (step (under noPins { opened with clPc := .trans, input := 1, elapsed := 500 }))).map
      (fun t => (t.cur, t.motorL, t.motorR, t.elapsed, t.clPc)) = some (1, 2000, 1000, 500, .reset) := by decide
theorem test_X4 :
    (nextOf (step (under noPins { opened with clPc := .trans, input := 3, driveCount := 6 }))).map
      (fun t => (t.cur, t.motorL, t.motorR, t.driveCount)) = some (0, 2000, 2000, 7) := by decide
theorem test_restart :
    (nextOf (step (under noPins { opened with clPc := .reset, elapsed := 501 }))).map (fun t => (t.elapsed, t.clPc)) =
      some (0, .test) := by decide

theorem test_G1 : (nextOf (step (under noPins (State.initial paramsTA)))).map (fun t => t.gate) = some .waitPress := by decide
theorem test_G2 : (nextOf (step (under pressPins (State.initial paramsTA)))).map (fun t => t.gate) = some .waitRelease := by
  decide
theorem test_G3 :
    (nextOf (step (under pressPins { State.initial paramsTA with gate := .waitRelease }))).map (fun t => t.gate) =
      some .waitRelease := by decide
theorem test_G4 :
    (nextOf (step (under noPins { State.initial paramsTA with gate := .waitRelease }))).map (fun t => t.gate) =
      some .run := by decide
/-- 43_start_gate_reset.md R122, its example; rst wins over a tick. -/
theorem test_reset :
    nextOf (step (under { tickPins 0xFF with rst := true } { opened with cur := 3, elapsed := 37, phase := 6, motorL := 9 })) =
      some { State.initial paramsTA with drawIndex := 1 } := by decide

/-! ### Iterations (95_test_vectors.md section 2.2) -/

theorem test_I3 :
    nextOf (iterate { opened with sampleReady := true, sample := 0x10, elapsed := 500, input := 1 }) =
      some { opened with cur := 2, input := 2, sample := 0x10, motorL := 1000, motorR := 2000, ind1 := true, driveCount := 1 } := by
  decide
theorem test_I5 :
    nextOf (iterate { opened with sampleReady := true, sample := 0xFF, elapsed := 500, input := 1, motorL := 7, ind1 := true }) =
      some { opened with cur := 3, input := 1, sample := 0xFF, driveCount := 1 } := by decide
/-- A CL.TRANS named where CL.TEST is selected, and a T(0xNN) that is no TICK.END, make a schedule ill-formed (30_encoding.md
R72). -/
theorem test_schedule_ill_placed :
    (runSchedule [.control .trans] opened).isNone = true ∧ (runSchedule [.tickByte 0] opened).isNone = true := by decide
/-- START opens the gate and moves nothing else (95_test_vectors.md P4). -/
theorem test_schedule_start :
    (runSchedule startTokens (State.initial paramsTA)).bind nextOf =
      some { State.initial paramsTA with gate := .run, drawIndex := 2 } := by decide

/-! ### For each statement a state and operands that meet its hypotheses -/

theorem witness_DecodeOfEncode : (Instr.tickIdle8up 1).wf 10 = true ∧ (Instr.tickIdle8up 7).wf 16 = true := by decide
theorem witness_EncodeOfDecode : decode 10 (.S 9) = .ok (.tickIdle8up 1) := rfl
theorem witness_PhaseSelectsSamplerOperation :
    (0 : PhaseWord).toNat < 10 ∧ (1 : PhaseWord).toNat < 10 ∧ (9 : PhaseWord).toNat < 10 ∧ 2 ≤ (2 : PhaseWord).toNat := by decide
theorem witness_WordsThatSelectNothing : decode 10 (.S 10) = .error .reservedPhase ∧ decode 10 (.C 7) = .error .reservedClPc ∧
    decode 10 (.G 2) = .error .gateRunSelectsNone ∧ decode 10 (.R 0) = .error .rstLowSelectsNone := ⟨rfl, rfl, rfl, rfl⟩
theorem witness_RecordWordLayout : recStart.dwell < 2 ^ 16 ∧ { recStart with dwell := 0xFFFF }.dwell < 2 ^ 16 := by decide
theorem witness_RecordWordRoundTrip : recStart.dwell < 2 ^ 16 := by decide
theorem witness_WellFormedTableMeetsRules : paramsWf paramsTA = true ∧ (3 : StateIdx).toNat < paramsTA.nStates := by decide
theorem witness_TableMeetingRulesIsRun :
    2 ≤ paramsTA.nPhase ∧ paramsTA.nPhase ≤ 16 ∧ paramsTA.nStates ≤ 16 ∧ paramsTA.startIdx.toNat < paramsTA.nStates ∧
    (∀ s : StateIdx, s.toNat < paramsTA.nStates →
      ∃ r, tableRead paramsTA s = some r ∧ (∀ c : InputCode, (recordNext r c).toNat < paramsTA.nStates) ∧
        r.dwell < 2 ^ paramsTA.wElapsed) ∧
    (∃ r, tableRead paramsTA paramsTA.termIdx = some r ∧ (∀ c : InputCode, recordNext r c = paramsTA.termIdx) ∧
      r.left = 0 ∧ r.right = 0) := by
  refine ⟨by decide, by decide, by decide, by decide, ?_, recStop, rfl, by decide, rfl, rfl⟩
  have h : ∀ s : StateIdx, s.toNat < paramsTA.nStates → s = 0 ∨ s = 1 ∨ s = 2 ∨ s = 3 := by decide
  intro s hs
  rcases h s hs with rfl | rfl | rfl | rfl
  · exact ⟨recStart, rfl, by decide, by decide⟩
  · exact ⟨recA, rfl, by decide, by decide⟩
  · exact ⟨recB, rfl, by decide, by decide⟩
  · exact ⟨recStop, rfl, by decide, by decide⟩
/-- A table whose one record leads outside it, built with ATOMIC_DWELL_RESET. -/
def leadingOut : State :=
  { openedAtomic with params := { openedAtomic.params with table := [{ recStart with next0 := 1 }] } }

theorem witness_ReadOutsideTableStops :
    tableRead paramsTA 4 = none ∧
    tableRead leadingOut.params leadingOut.cur = some { recStart with next0 := 1 } ∧
    tableRead leadingOut.params (recordNext { recStart with next0 := 1 } leadingOut.input) = none ∧
    leadingOut.params.atomicDwellReset = true ∧ recStart.dwell ≤ { leadingOut with elapsed := 500 }.elapsed := by decide
theorem witness_ReadOutsideTable_faults :
    exec .clRender { opened with cur := 4 } = .fault (.noRecord 4) ∧ exec .clTrans leadingOut = .fault (.noRecord 1) ∧
    exec .clCmp { leadingOut with elapsed := 500 } = .fault (.noRecord 1) ∧
    (∃ t, exec .clCmp { leadingOut with elapsed := 499 } = .next t) := ⟨rfl, rfl, rfl, _, rfl⟩

/-- The states the operations' statements speak of: at the first and last phase, and with a tick. -/
theorem witness_TickBeginRuns :
    let s := under (tickPins 0) opened
    s.phase = 0 ∧ 2 ≤ s.params.nPhase ∧ paramsWf s.params = true ∧ s.gate = .run ∧ TickPins (pinsNow s) := by decide
theorem witness_TickEndRuns :
    let s := under (tickPins 0xFF) { opened with phase := 1 }
    s.phase = 1 ∧ 2 ≤ s.params.nPhase ∧ (pinsNow s).sensorData = 0xFF ∧ paramsWf s.params = true ∧ s.gate = .run ∧
      TickPins (pinsNow s) := by decide
theorem witness_TickIdleRuns :
    let s := under (tickPins 0) { opened with phase := 9 }
    isTickIdle (.tickIdle8up 1) = true ∧ 2 ≤ s.phase.toNat ∧ s.phase.toNat < s.params.nPhase ∧ paramsWf s.params = true ∧
      s.gate = .run ∧ TickPins (pinsNow s) := by decide
theorem witness_ClTestRuns : opened.sampleReady = false ∧ { opened with sampleReady := true }.sampleReady = true := by decide
theorem witness_ClReadRuns : { opened with sample := 0xFF }.sample = 0xFF ∧ { opened with sample := 0xFE }.sample ≠ 0xFF := by
  decide
theorem witness_ClRenderRuns : tableRead opened.params opened.cur = some recStart := by decide
theorem witness_ClCmpRuns :
    opened.params.atomicDwellReset = false ∧ tableRead opened.params opened.cur = some recStart ∧
    recStart.dwell ≤ { opened with elapsed := 500 }.elapsed ∧ { opened with elapsed := 499 }.elapsed < recStart.dwell := by
  decide
theorem witness_AtomicClCmpRuns :
    openedAtomic.params.atomicDwellReset = true ∧ tableRead openedAtomic.params openedAtomic.cur = some recStart ∧
    tableRead openedAtomic.params (recordNext recStart openedAtomic.input) = some recB ∧
    recStart.dwell ≤ { openedAtomic with elapsed := 500 }.elapsed ∧ openedAtomic.elapsed < recStart.dwell := by decide
theorem witness_ClTransRuns :
    tableRead opened.params opened.cur = some recStart ∧ tableRead opened.params (recordNext recStart opened.input) = some recB ∧
    opened.params.atomicDwellReset = false ∧ (pulses .clTrans opened).driveStrobe = true := by decide
theorem witness_GatePressRuns :
    (State.initial paramsTA).gate = .waitPress ∧ (pinsNow (under pressPins (State.initial paramsTA))).startIn = true ∧
    (pinsNow (under noPins (State.initial paramsTA))).startIn = false ∧
    ControlPins (pinsNow (under noPins (State.initial paramsTA))) ∧ paramsWf paramsTA = true ∧
    TickPins (pinsNow (under (tickPins 0) (State.initial paramsTA))) := by decide
theorem witness_GateReleaseRuns :
    let s := { State.initial paramsTA with gate := .waitRelease }
    s.gate = .waitRelease ∧ (pinsNow (under pressPins s)).startIn = true ∧ (pinsNow (under noPins s)).startIn = false := by decide
theorem witness_ResetRuns : paramsWf paramsTA = true ∧ (pinsNow (under rstPins opened)).rst = true := by decide
theorem witness_SamplerFrame :
    isSampler .tickBegin = true ∧ isSampler .tickEnd = true ∧ isSampler (.tickIdle23 0) = true ∧
    (∃ t, exec .tickBegin opened = .next t) ∧ (∃ t, exec .tickEnd opened = .next t) ∧
    ∃ t, exec (.tickIdle23 0) opened = .next t := ⟨rfl, rfl, rfl, ⟨_, rfl⟩, ⟨_, rfl⟩, ⟨_, rfl⟩⟩
theorem witness_ControlLoopFrame :
    isControlLoop .clRead = true ∧ (∃ t, exec .clRead { opened with sample := 0xFF } = .next t) ∧
    (∃ t, exec .clRead { opened with sample := 0xFE } = .next t) ∧
    (∃ t, exec .clCmp openedAtomic = .next t) ∧ cmpTakesEdge openedAtomic = false ∧
    (∃ t, exec .clTrans opened = .next t) ∧ (∃ t, exec .clReset opened = .next t) ∧ (∃ t, exec .clRender opened = .next t) :=
  ⟨rfl, ⟨_, rfl⟩, ⟨_, rfl⟩, ⟨_, rfl⟩, rfl, ⟨_, rfl⟩, ⟨_, rfl⟩, ⟨_, rfl⟩⟩
theorem witness_StartGateFrame : (∃ t, exec .gatePress (under pressPins opened) = .next t) ∧
    ∃ t, exec .gateRelease (under noPins opened) = .next t := ⟨⟨_, rfl⟩, ⟨_, rfl⟩⟩
theorem witness_NothingWritesTheTable : ∃ t, Sys2Proof.core.run 1 (under (tickPins 0) opened) = .next t := ⟨_, rfl⟩
theorem witness_StepRunsDecodedOperation :
    paramsWf opened.params = true ∧ selectWord (under noPins opened) = some (.C 0) ∧
    decode opened.params.nPhase (.C 0) = .ok .clTest ∧ (∃ t, exec .clTest (under noPins opened) = .next t) ∧
    (∃ f, exec .clRender { opened with cur := 4, clPc := .render } = .fault f) := ⟨rfl, rfl, rfl, ⟨_, rfl⟩, ⟨_, rfl⟩⟩
theorem witness_StepDispatchOrder :
    paramsWf opened.params = true ∧ opened.phase.toNat < opened.params.nPhase ∧ (pinsNow (under rstPins opened)).rst = true ∧
    (pinsNow (under (tickPins 0) opened)).rst = false ∧ (pinsNow (under (tickPins 0) opened)).tick = true ∧
    opened.gate = .run ∧ (State.initial paramsTA).gate = .waitPress ∧ (pinsNow (under noPins opened)).rst = false ∧
    (pinsNow (under noPins opened)).tick = false ∧ { opened with gate := .waitRelease }.gate = .waitRelease := by decide
theorem witness_StepRefusals :
    step { opened with params := { paramsTA with termIdx := 2 } } = .refused .illFormedParams ∧
    step (under (tickPins 0) { opened with phase := 10 }) = .refused (.reservedSelector .reservedPhase) := ⟨rfl, rfl⟩
theorem witness_PlacedWordRunsNext :
    decodeTableWord 4 1 = some .tickEnd ∧ decodeTableWord 8 6 = some .clReset ∧ decodeTableWord 1 1 = some .reset := by decide
theorem witness_InvariantAtReset : paramsWf paramsTA = true := by decide
theorem witness_StepKeepsInvariant : GoodState opened ∧ ∃ t, step (under (tickPins 0) opened) = .next t := ⟨by decide, _, rfl⟩
theorem witness_RunNeverStops : GoodState opened ∧ GoodState (State.initial paramsTA) := by decide
theorem witness_CursorChanges :
    (∃ t, step (under rstPins { opened with cur := 3 }) = .next t ∧ t.cur ≠ 3) ∧
    (∃ t, step (under noPins { opened with clPc := .read, sampleReady := true, sample := 0xFF }) = .next t ∧ t.cur ≠ 0) ∧
    (∃ t, step (under noPins { opened with clPc := .trans }) = .next t ∧ t.cur ≠ 0) :=
  ⟨⟨_, rfl, by decide⟩, ⟨_, rfl, by decide⟩, ⟨_, rfl, by decide⟩⟩

/-- A state at the terminal State with motors that stand still. -/
def stopped : State := { opened with cur := 3 }

theorem witness_TerminalStateAbsorbs :
    GoodState stopped ∧ AtTerminal stopped ∧ MotorsStopped stopped ∧ (∀ p ∈ [tickPins 0, noPins], p.rst = false) ∧
    ∃ t, runPins [tickPins 0, noPins] stopped = .next t := ⟨by decide, by decide, by decide, by decide, _, rfl⟩
theorem witness_TransitionToTerminal : GoodState { opened with clPc := .trans } ∧ AtTerminal stopped ∧ GoodState stopped := by
  decide
theorem witness_MotorsStopAfterOverride :
    let s := { stopped with motorL := 2000, elapsed := 50 }
    let ins := [noPins, noPins, tickPins 0, noPins, noPins, noPins, noPins]
    GoodState s ∧ s.gate = .run ∧ AtTerminal s ∧ s.clPc ≠ .reset ∧ tableRead s.params s.cur = some recStop ∧
    recStop.dwell ≤ s.elapsed ∧ (∀ p ∈ ins, p.rst = false) ∧ 6 ≤ ins.countP (fun p => !p.tick) ∧
    ∃ t, runPins ins s = .next t := ⟨by decide, by decide, by decide, by decide, by decide, by decide, by decide, by decide, _, rfl⟩
theorem witness_ClosedGateHoldsResetValues :
    paramsWf paramsTA = true ∧ ∃ t, runPins [tickPins 0xFF, pressPins] (State.initial paramsTA) = .next t ∧ t.gate ≠ .run :=
  ⟨by decide, _, rfl, by decide⟩
theorem witness_PhaseCountsTicks :
    GoodState opened ∧ opened.gate = .run ∧ (∀ p ∈ [tickPins 0, noPins, tickPins 0], p.rst = false) ∧
    ∃ t, runPins [tickPins 0, noPins, tickPins 0] opened = .next t := ⟨by decide, rfl, by decide, _, rfl⟩
theorem witness_SensorSpacing :
    (∃ t, step (under (tickPins 0) opened) = .next t ∧ t.phase = 1 ∧ opened.phase ≠ 1) ∧
    (nextInstr (under (tickPins 0) { opened with phase := 1 }) = some .tickEnd) ∧
    (∃ t, step (under (tickPins 0) { opened with phase := 1 }) = .next t ∧ t.phase ≠ 1) :=
  ⟨⟨_, rfl, by decide, by decide⟩, rfl, ⟨_, rfl, by decide⟩⟩
theorem witness_SampleReadyWriters :
    (∃ t, step (under (tickPins 8) { opened with phase := 1 }) = .next t ∧ t.sampleReady = true) ∧
    opened.sampleReady = false ∧
    (∃ t, step (under noPins { opened with clPc := .clear, sampleReady := true }) = .next t ∧ t.sampleReady = false) :=
  ⟨⟨_, rfl, rfl⟩, rfl, ⟨_, rfl, rfl⟩⟩
theorem witness_MotorsFollowDriveStrobe :
    (∃ t, step (under noPins { opened with clPc := .trans }) = .next t) ∧
    nextInstr (under noPins { opened with clPc := .trans }) = some .clTrans ∧
    (pulses .clTrans opened).driveStrobe = true ∧ (pulses .clTest opened).driveStrobe = false ∧
    (∃ t, step (under (tickPins 0) opened) = .next t) ∧ nextInstr (under (tickPins 0) opened) = some .tickBegin ∧
    (pulses .tickBegin opened).sensBegin = true ∧ (pulses .clTest opened).sensBegin = false :=
  ⟨⟨_, rfl⟩, rfl, rfl, rfl, ⟨_, rfl⟩, rfl, rfl, rfl⟩
/-- The atomic CL.CMP with the strobe, when the dwell is over, and without, when it is not. -/
theorem witness_MotorsFollowDriveStrobe_atomic :
    let s := under noPins { openedAtomic with clPc := .cmp, elapsed := 500 }
    let u := under noPins { openedAtomic with clPc := .cmp, elapsed := 499 }
    (∃ t, step s = .next t) ∧ nextInstr s = some .clCmp ∧ (pulses .clCmp s).driveStrobe = true ∧
    (∃ t, step u = .next t) ∧ nextInstr u = some .clCmp ∧ (pulses .clCmp u).driveStrobe = false :=
  ⟨⟨_, rfl⟩, rfl, rfl, ⟨_, rfl⟩, rfl, rfl⟩
theorem witness_GateOpensInOrder :
    (∃ t, step (under pressPins (State.initial paramsTA)) = .next t ∧ t.gate ≠ .waitPress) ∧
    (∃ t, step (under noPins { State.initial paramsTA with gate := .waitRelease }) = .next t ∧ t.gate ≠ .waitRelease) ∧
    (∃ t, step (under rstPins opened) = .next t ∧ t.gate ≠ .run) :=
  ⟨⟨_, rfl, by decide⟩, ⟨_, rfl, by decide⟩, ⟨_, rfl, by decide⟩⟩
theorem witness_RenderedIndicatorsStay :
    (∃ t, step (under noPins { opened with clPc := .render }) = .next t ∧ tableRead t.params t.cur = some recStart) ∧
    nextInstr (under noPins { opened with clPc := .render }) = some .clRender ∧
    (∃ t, step (under noPins { opened with clPc := .cmp, ind1 := true }) = .next t ∧ t.cur = 0 ∧
      tableRead t.params t.cur = some recStart) ∧
    nextInstr (under noPins { opened with clPc := .cmp, ind1 := true }) ≠ some .reset :=
  ⟨⟨_, rfl, rfl⟩, rfl, ⟨_, rfl, rfl, rfl⟩, by decide⟩
theorem witness_SamplerCommutes :
    isSampler .tickEnd = true ∧ (∃ a, exec .tickEnd (under (tickPins 8) opened) = .next a) ∧
    (∃ b, exec .clRender (under (tickPins 8) opened) = .next b) ∧ ∃ b, exec .clTrans (under (tickPins 8) opened) = .next b :=
  ⟨rfl, ⟨_, rfl⟩, ⟨_, rfl⟩, ⟨_, rfl⟩⟩
theorem witness_SamplerIgnoresControlState :
    let s := under (tickPins 8) opened
    let u := under (tickPins 8) { opened with cur := 2, clPc := .trans, input := 3, motorL := 7 }
    isSampler .tickEnd = true ∧ s.phase = u.phase ∧ s.elapsed = u.elapsed ∧ s.params = u.params ∧ pinsNow s = pinsNow u := by
  decide
theorem witness_TransitionRunsThroughTicks :
    let s := { opened with clPc := .cmp, elapsed := 500 }
    GoodState s ∧ s.gate = .run ∧ s.clPc = .cmp ∧ s.params.atomicDwellReset = false ∧
    tableRead s.params s.cur = some recStart ∧ tableRead s.params (recordNext recStart s.input) = some recB ∧
    recStart.dwell ≤ s.elapsed ∧ ControlPins noPins ∧ (∀ p ∈ [tickPins 0xFF], TickPins p) := by decide
theorem witness_SampleBetweenReadAndClearIsLost :
    let s := { opened with clPc := .clear, sampleReady := true, phase := 1 }
    GoodState s ∧ s.gate = .run ∧ s.clPc = .clear ∧ s.phase = 1 ∧ TickPins (tickPins 0xFF) ∧ ControlPins noPins := by decide
theorem witness_SampleBetweenTestAndReadIsRead :
    let s := { opened with clPc := .read, sampleReady := true, phase := 1 }
    GoodState s ∧ s.gate = .run ∧ s.clPc = .read ∧ s.phase = 1 ∧ TickPins (tickPins 0xFF) ∧ TickPins (tickPins 0xFE) ∧
    ControlPins noPins := by decide
/-- The sentinel published right after CL.TEST and after the iteration's last operation, with the dwell over and not. -/
theorem witness_SentinelAfterTestWaits :
    let s := { opened with phase := 1, elapsed := 500 }
    let u := { opened with phase := 1, elapsed := 498 }
    GoodState s ∧ AtIterationStart s ∧ s.sampleReady = false ∧ s.phase = 1 ∧ tableRead s.params s.cur = some recStart ∧
    tableRead s.params (recordNext recStart s.input) = some recB ∧ ControlPins noPins ∧ TickPins (tickPins 0xFF) ∧
    1 + ([] : List Pins).length + (List.replicate 4 noPins).length = iterLength s ∧ recStart.dwell ≤ s.elapsed ∧
    GoodState u ∧ AtIterationStart u ∧ 1 + (List.replicate 2 noPins).length + ([] : List Pins).length = iterLength u ∧
    u.elapsed + 1 < recStart.dwell := by decide
theorem witness_SentinelAfterTestWaits_atomic :
    let s := { openedAtomic with phase := 1, elapsed := 500 }
    GoodState s ∧ AtIterationStart s ∧ s.sampleReady = false ∧ tableRead s.params s.cur = some recStart ∧
    tableRead s.params (recordNext recStart s.input) = some recB ∧ 1 + [noPins].length + [noPins].length = iterLength s ∧
    recStart.dwell ≤ s.elapsed := by decide
theorem witness_PromptClear :
    let s := { opened with clPc := .clear, sampleReady := true, phase := 2 }
    GoodState s ∧ s.gate = .run ∧ s.clPc = .clear ∧ (∀ p ∈ [tickPins 0xFF, tickPins 0], TickPins p) ∧
    promptClear true true (opsOver [tickPins 0xFF, tickPins 0] s) = true ∧ ∃ t, runPins [tickPins 0xFF, tickPins 0] s = .next t :=
  ⟨by decide, by decide, by decide, by decide, by decide, _, rfl⟩
theorem witness_IterationIsOneBlock :
    let s := { opened with sampleReady := true, sample := 0xFF, elapsed := 50 }
    GoodState s ∧ AtIterationStart s ∧ (∀ p ∈ List.replicate 7 noPins, ControlPins p) ∧
    (List.replicate 7 noPins).length = iterLength s := by decide
/-- The iteration of the atomic variant, its edge taken by CL.CMP: five operations with a sample, three without. -/
theorem witness_IterationIsOneBlock_atomic :
    let s := { openedAtomic with sampleReady := true, sample := 0x08, elapsed := 500 }
    let u := { openedAtomic with elapsed := 500 }
    GoodState s ∧ AtIterationStart s ∧ (∀ p ∈ List.replicate 5 noPins, ControlPins p) ∧
    (List.replicate 5 noPins).length = iterLength s ∧ iterExpired s = true ∧
    GoodState u ∧ AtIterationStart u ∧ (List.replicate 3 noPins).length = iterLength u := by decide
theorem witness_DwellGatesTheCursor :
    (GoodState { opened with elapsed := 499 } ∧ AtIterationStart { opened with elapsed := 499 } ∧
      iterSentinel { opened with elapsed := 499 } = false ∧ tableRead paramsTA 0 = some recStart ∧
      (∀ p ∈ List.replicate 3 noPins, ControlPins p) ∧ (List.replicate 3 noPins).length = iterLength { opened with elapsed := 499 } ∧
      499 < recStart.dwell ∧ ∃ t, runPins (List.replicate 3 noPins) { opened with elapsed := 499 } = .next t) ∧
    (GoodState { opened with elapsed := 500 } ∧ AtIterationStart { opened with elapsed := 500 } ∧
      iterSentinel { opened with elapsed := 500 } = false ∧ (List.replicate 5 noPins).length = iterLength { opened with elapsed := 500 } ∧
      recStart.dwell ≤ 500 ∧ ∃ t, runPins (List.replicate 5 noPins) { opened with elapsed := 500 } = .next t) :=
  ⟨⟨by decide, by decide, by decide, by decide, by decide, by decide, by decide, _, rfl⟩,
   ⟨by decide, by decide, by decide, by decide, by decide, _, rfl⟩⟩
/-- The same clause in the atomic variant, whose CL.CMP takes the edge: three operations. -/
theorem witness_DwellGatesTheCursor_atomic :
    let s := { openedAtomic with elapsed := 500 }
    GoodState s ∧ AtIterationStart s ∧ iterSentinel s = false ∧ tableRead s.params s.cur = some recStart ∧
    (∀ p ∈ List.replicate 3 noPins, ControlPins p) ∧ (List.replicate 3 noPins).length = iterLength s ∧
    recStart.dwell ≤ s.elapsed ∧ ∃ t, runPins (List.replicate 3 noPins) s = .next t :=
  ⟨by decide, by decide, by decide, by decide, by decide, by decide, by decide, _, rfl⟩
theorem witness_SensorLostSequence :
    let s := { opened with clPc := .read, sampleReady := true, sample := 0xFF }
    GoodState s ∧ s.gate = .run ∧ s.clPc = .read ∧ s.sample = 0xFF ∧ s.params.atomicDwellReset = false ∧
    tableRead s.params s.params.termIdx = some recStop ∧ (∀ p ∈ List.replicate 4 noPins, ControlPins p) ∧
    (List.replicate 4 noPins).length = 4 := by decide
theorem witness_AtomicVariantRefinesDefault :
    let s := { openedAtomic with clPc := .cmp, elapsed := 500 }
    GoodState s ∧ s.params.atomicDwellReset = true ∧ (∃ t, runPins [noPins, tickPins 0] s = .next t) ∧
    withTransitionSteps [noPins, tickPins 0] s = [noPins, controlPins false, controlPins false, tickPins 0] :=
  ⟨by decide, rfl, ⟨_, rfl⟩, rfl⟩
theorem witness_StartSequenceOpensTheGate : paramsWf paramsTA = true ∧ paramsWf Params.smallest = true := by decide

end Sys2Proof.Tests
end

section
/-! SUPPORT. The State table is read-only (20_memory.md R42): every step keeps the parameters, which hold it. -/

namespace Sys2Proof.Machine

/-- What every step keeps holds after any number of steps. -/
theorem core_run_keeps {P : State → Prop} (hstep : ∀ s t, P s → step s = .next t → P t) {n : Nat} {s t : State}
    (hP : P s) (h : Sys2Proof.core.run n s = .next t) : P t := by
  induction n generalizing s with
  | zero => cases h; exact hP
  | succ n ih =>
    rw [core_run_succ] at h
    cases hs : step s with
    | next u => rw [hs] at h; exact ih (hstep s u hP hs) h
    | fault f => rw [hs] at h; cases h
    | refused r => rw [hs] at h; cases h

/-- The parameters are not written by any run (10_state.md R22). -/
theorem core_run_params {n : Nat} {s t : State} (h : Sys2Proof.core.run n s = .next t) : t.params = s.params :=
  core_run_keeps (P := fun u => u.params = s.params) (fun _ _ hu hs => (step_next_env hs).2.trans hu) rfl h

/-- A table read looks at the parameters alone (20_memory.md R41). -/
theorem sameTable_of_params_eq {s t : State} (h : t.params = s.params) : SameTable s t :=
  fun a => congrArg (tableRead · a) h

/-- Settles O30: no step writes the parameters, by induction on the number of steps, and the table is one of them. -/
theorem nothingWritesTheTable : Obligations.NothingWritesTheTable := by
  intro n s t h
  have hp : t.params = s.params := core_run_params h
  exact ⟨hp, sameTable_of_params_eq hp⟩

end Sys2Proof.Machine
end


section
/-! SUPPORT. Which operation a selector word of format S or C selects (30_encoding.md R66, R67). -/

namespace Sys2Proof.Machine

/-- `phase = 0` selects TICK.BEGIN (30_encoding.md R66). -/
theorem decodeS_zero {n : Nat} (h : 0 < n) : decodeS n 0 = .ok .tickBegin :=
  if_neg (Nat.not_le.mpr h)

/-- `phase = 1` selects TICK.END (30_encoding.md R66). -/
theorem decodeS_one {n : Nat} (h : 1 < n) : decodeS n 1 = .ok .tickEnd :=
  if_neg (Nat.not_le.mpr h)

/-- TICK.BEGIN, TICK.END and the TICK.IDLEs are all of the Sampler's operations (30_encoding.md section 5). -/
theorem isTickIdle_of_isSampler {i : Instr} (hs : isSampler i = true) (hb : i ≠ .tickBegin) (he : i ≠ .tickEnd) :
    isTickIdle i = true := by
  simpa [isSampler, hb, he] using hs

/-- Every phase from 2 to N_PHASE-1 selects a TICK.IDLE (30_encoding.md R66): it selects an operation of the Sampler that
encodes to it, and TICK.BEGIN and TICK.END encode to 0 and 1. -/
theorem decodeS_tickIdle {n : Nat} {p : PhaseWord} (h2 : 2 ≤ p.toNat) (h : p.toNat < n) :
    ∃ i, decodeS n p = .ok i ∧ isTickIdle i = true := by
  obtain ⟨i, hd, hs, henc⟩ := decodeS_ok h
  refine ⟨i, hd, isTickIdle_of_isSampler hs ?_ ?_⟩
  · rintro rfl
    cases henc
    exact absurd h2 (by decide)
  · rintro rfl
    cases henc
    exact absurd h2 (by decide)

/-- Settles O3, by the three ranges of `phase` below N_PHASE: 0, 1 and the rest. -/
theorem phaseSelectsSamplerOperation : Obligations.PhaseSelectsSamplerOperation := by
  intro n p h
  refine ⟨?_, ?_, fun h2 => decodeS_tickIdle h2 h⟩
  · rintro rfl
    exact decodeS_zero h
  · rintro rfl
    exact decodeS_one h

/-- Settles O4: format C is decoded without N_PHASE, so each of its seven words computes to its operation. -/
theorem clPcSelectsLoopOperation : Obligations.ClPcSelectsLoopOperation :=
  fun _ => ⟨rfl, rfl, rfl, rfl, rfl, rfl, rfl⟩

end Sys2Proof.Machine
end


section
/-! SUPPORT. What an accepted State table satisfies (40_transition_engine.md section 2). -/

namespace Sys2Proof.Machine

/-- Every record of a well-formed table: all four successors exist (40_transition_engine.md R81) and the dwell fits its field
(R85). -/
theorem wf_record {p : Params} (hp : paramsWf p = true) {i : StateIdx} {r : StateRecord} (h : tableRead p i = some r) :
    (∀ c, (recordNext r c).toNat < p.nStates) ∧ r.dwell < 2 ^ p.wElapsed := by
  obtain ⟨-, -, -, -, -, -, htotal, hdwell, -⟩ := (paramsWf_iff p).mp hp
  exact ⟨recordNext_lt (htotal r (tableRead_mem h)), hdwell r (tableRead_mem h)⟩

/-- Settles O10: the checks of `paramsWf` are those of R81 to R85, read off at the record of each State and of TERM_IDX. -/
theorem wellFormedTableMeetsRules : Obligations.WellFormedTableMeetsRules := by
  intro p hp
  obtain ⟨-, -, -, -, hstart, hterm, -⟩ := (paramsWf_iff p).mp hp
  refine ⟨fun s hs => ?_, ?_, hstart⟩
  · obtain ⟨r, hr⟩ := tableRead_of_lt hs
    exact ⟨r, hr, wf_record hp hr⟩
  · obtain ⟨r, hr⟩ := tableRead_of_lt hterm
    obtain ⟨hloop, hleft, hright, -⟩ := terminal_record hp hr
    exact ⟨r, hr, hloop, hleft, hright⟩

end Sys2Proof.Machine
end


section
/-! SUPPORT. The Sampler's operations run from `phase`: the phase advance as arithmetic, and the operation a tick selects
(41_sampler.md R90, R92 to R95). -/

namespace Sys2Proof.Machine

/-- The phase advance is the increment modulo N_PHASE (41_sampler.md R95), for every N_PHASE above the phase. -/
theorem incMod_eq_ofNat {n : Nat} {v : PhaseWord} (h : v.toNat < n) :
    incMod n v = BitVec.ofNat 4 ((v.toNat + 1) % n) := by
  unfold incMod
  split
  case isTrue hn =>
    rw [hn, Nat.mod_self]
    rfl
  case isFalse hn =>
    rw [Nat.mod_eq_of_lt (by omega), BitVec.ofNat_add, BitVec.ofNat_toNat, BitVec.setWidth_eq]
    rfl

/-- Phase 0 advances to 1, as N_PHASE is 2 or more (41_sampler.md R90). -/
theorem incMod_zero {n : Nat} (h : 2 ≤ n) : incMod n 0 = 1 :=
  if_neg (Nat.ne_of_lt h)

/-- With the gate open a tick runs the operation that `phase` selects (41_sampler.md R93). -/
theorem nextInstr_of_tick {s : State} {i : Instr} (hg : s.gate = .run) (ht : TickPins (pinsNow s))
    (hd : decodeS s.params.nPhase s.phase = .ok i) : nextInstr s = some i := by
  obtain ⟨hrst, htick⟩ := ht
  simp [nextInstr, selectWord, hrst, htick, hg, decode, hd]

/-- Each of the three rows of TICK.IDLE counts the tick and does nothing else (41_sampler.md R92). -/
theorem exec_tickIdle (s : State) : ∀ {i : Instr}, isTickIdle i = true → exec i s = .next (countTick s)
  | .tickIdle23 _, _ | .tickIdle47 _, _ | .tickIdle8up _, _ => rfl

/-- A TICK.IDLE calls no collaborator (41_sampler.md R92). -/
theorem pulses_tickIdle (s : State) : ∀ {i : Instr}, isTickIdle i = true → pulses i s = noPulse
  | .tickIdle23 _, _ | .tickIdle47 _, _ | .tickIdle8up _, _ => rfl

/-- Settles O13: TICK.BEGIN counts the tick after its request, and phase 0 both advances to 1 and selects it. -/
theorem tickBeginRuns : Obligations.TickBeginRuns := by
  intro s hphase hn
  have hadvance : incMod s.params.nPhase s.phase = 1 := by rw [hphase, incMod_zero hn]
  refine ⟨?_, rfl, rfl, fun _ hg ht => nextInstr_of_tick hg ht ?_⟩
  · rw [← hadvance]
    rfl
  · rw [hphase]
    exact decodeS_zero (by omega)

/-- Settles O15: all three rows count the tick, which advances the phase modulo N_PHASE, and a phase from 2 selects the
TICK.IDLE that encodes to it. -/
theorem tickIdleRuns : Obligations.TickIdleRuns := by
  intro s i hi h2 hn
  refine ⟨?_, pulses_tickIdle s hi, fun _ hg ht => ?_⟩
  · rw [exec_tickIdle s hi, ← incMod_eq_ofNat hn]
    rfl
  · obtain ⟨k, hd, hk⟩ := decodeS_tickIdle h2 hn
    obtain ⟨k', hd', -, henc⟩ := decodeS_ok hn
    obtain rfl : k = k' := by rw [hd] at hd'; exact Except.ok.inj hd'
    exact ⟨k, nextInstr_of_tick hg ht hd, hk, henc⟩

end Sys2Proof.Machine
end


section
/-! SUPPORT. The Control Loop's operations run in any state: the sensor byte and the dwell test that they branch on, the
records that they read, and who issues motor levels (42_control_loop.md R101 to R107). -/

namespace Sys2Proof.Machine

/-- The Input code is bits 4:3 of the byte, as a number (30_encoding.md R62). -/
theorem inputOf_eq_ofNat (b : Byte) : inputOf b = BitVec.ofNat 2 (b.toNat / 8 % 4) := by
  have hmask : (b.toNat &&& 24) >>> 3 = b.toNat / 8 % 4 := by
    rw [Nat.shiftRight_and_distrib, Nat.shiftRight_eq_div_pow]
    exact Nat.and_two_pow_sub_one_eq_mod _ 2
  apply BitVec.eq_of_toNat_eq
  simp [inputOf, hmask]

/-- The sentinel is the whole byte 0xFF (30_encoding.md R63). -/
theorem isSentinel_iff (b : Byte) : isSentinel b = true ↔ b = 0xFF := beq_iff_eq

/-- The dwell comparator (42_control_loop.md R105). -/
theorem dwellExpired_iff (s : State) (r : StateRecord) : dwellExpired s r = true ↔ r.dwell ≤ s.elapsed :=
  decide_eq_true_iff

/-- CL.READ of the sentinel takes the exception (42_control_loop.md R102). -/
theorem exec_clRead_sentinel {s : State} (h : isSentinel s.sample = true) :
    exec .clRead s = .next (goTo .clear (raiseSensorLost s)) := by
  simp only [exec, execClRead, if_pos h]

/-- CL.READ of every other byte latches the Input code (42_control_loop.md R102). -/
theorem exec_clRead_latch {s : State} (h : ¬ isSentinel s.sample = true) :
    exec .clRead s = .next (goTo .clear { s with input := inputOf s.sample }) := by
  simp only [exec, execClRead, if_neg h]

/-- CL.RENDER where the cursor has a record (42_control_loop.md R104). -/
theorem exec_clRender {s : State} {r : StateRecord} (hr : tableRead s.params s.cur = some r) :
    exec .clRender s = .next (goTo .cmp (renderIndicators r s)) := by
  simp only [exec, execClRender]
  rw [withRecord_some _ hr]

/-- CL.CMP once the dwell is over, in the default machine (42_control_loop.md R105). -/
theorem exec_clCmp_expired {s : State} {r : StateRecord} (ha : s.params.atomicDwellReset = false)
    (hr : tableRead s.params s.cur = some r) (hd : r.dwell ≤ s.elapsed) : exec .clCmp s = .next (goTo .trans s) := by
  simp only [exec, execClCmp]
  rw [withRecord_some _ hr, if_pos ((dwellExpired_iff s r).mpr hd), if_neg (by simp [ha])]

/-- CL.CMP before the dwell is over, in both variants (42_control_loop.md R105, R109). -/
theorem exec_clCmp_before {s : State} {r : StateRecord} (hr : tableRead s.params s.cur = some r)
    (hd : s.elapsed < r.dwell) : exec .clCmp s = .next (goTo .test s) := by
  simp only [exec, execClCmp]
  rw [withRecord_some _ hr, if_neg (by rw [dwellExpired_iff]; omega)]

/-- CL.TRANS where the cursor and the successor have records (42_control_loop.md R106). -/
theorem exec_clTrans {s : State} {r n : StateRecord} (hr : tableRead s.params s.cur = some r)
    (hn : tableRead s.params (recordNext r s.input) = some n) :
    exec .clTrans s = .next (goTo .reset (setDrive n.left n.right { s with cur := recordNext r s.input })) := by
  simp only [exec, execClTrans]
  rw [takeEdge_some _ hr hn]

/-- Without ATOMIC_DWELL_RESET, CL.CMP never takes the edge (42_control_loop.md R109). -/
theorem cmpTakesEdge_default {s : State} (ha : s.params.atomicDwellReset = false) : cmpTakesEdge s = false := by
  rw [cmpTakesEdge, ha, Bool.false_and]

/-- Who issues motor levels: CL.TRANS, and a CL.CMP that takes the edge (42_control_loop.md R106, R109). -/
theorem pulses_driveStrobe_iff (i : Instr) (s : State) :
    (pulses i s).driveStrobe = true ↔ i = .clTrans ∨ (i = .clCmp ∧ cmpTakesEdge s = true) := by
  cases i <;> simp [pulses, noPulse]

/-- Settles O16, by the two values of the flag. -/
theorem clTestRuns : Obligations.ClTestRuns := by
  refine ⟨rfl, fun s => ⟨fun h => ?_, fun h => ?_⟩⟩
  · simp only [exec, execClTest, h, if_true, goTo]
  · simp only [exec, execClTest, h, Bool.false_eq_true, if_false, goTo]

/-- Settles O17: the exception on the sentinel, the latched code on every other byte. -/
theorem clReadRuns : Obligations.ClReadRuns := by
  refine ⟨rfl, fun s => ⟨fun h => ?_, fun h => ?_⟩⟩
  · exact exec_clRead_sentinel ((isSentinel_iff _).mpr h)
  · rw [exec_clRead_latch (mt (isSentinel_iff _).mp h), inputOf_eq_ofNat]
    rfl

/-- Settles O18: the meaning of CL.CLEAR is one record update, with no branch. -/
theorem clClearRuns : Obligations.ClClearRuns := ⟨rfl, fun _ => rfl⟩

/-- Settles O19, with the record that the hypothesis gives. -/
theorem clRenderRuns : Obligations.ClRenderRuns := ⟨rfl, fun _ _ hr => exec_clRender hr⟩

/-- Settles O20, by the two outcomes of the dwell comparator. -/
theorem clCmpRuns : Obligations.ClCmpRuns :=
  ⟨rfl, fun _ _ ha hr => ⟨exec_clCmp_expired ha hr, exec_clCmp_before hr⟩⟩

/-- Settles O22: CL.TRANS takes the edge, and the default machine's CL.CMP, the only other issuer, does not. -/
theorem clTransRuns : Obligations.ClTransRuns := by
  refine ⟨rfl, fun s r n hr hn => ⟨exec_clTrans hr hn, rfl, fun ha i hi => ?_⟩⟩
  obtain rfl | ⟨-, hedge⟩ := (pulses_driveStrobe_iff i s).mp hi
  · rfl
  · rw [cmpTakesEdge_default ha] at hedge
    contradiction

/-- Settles O23: the meaning of CL.RESET is a plain store of 0, with no branch. -/
theorem clResetRuns : Obligations.ClResetRuns := ⟨rfl, fun _ => rfl⟩

end Sys2Proof.Machine
end


section
/-! SUPPORT. The start gate and RESET: what the gate and `rst` select, the two answers of a polling step, and the closed
gate's reset values over every run (43_start_gate_reset.md R120 to R124). -/

namespace Sys2Proof.Machine

/-- `rst` selects RESET over every other selector (43_start_gate_reset.md R122). -/
theorem nextInstr_of_rst {s : State} (h : (pinsNow s).rst = true) : nextInstr s = some .reset := by
  simp [nextInstr, selectWord, h, decode, decodeR]

/-- A tick before the gate opens is dropped (41_sampler.md R93). -/
theorem nextInstr_dropped_tick {s : State} (hg : s.gate ≠ .run) (ht : TickPins (pinsNow s)) : nextInstr s = none := by
  obtain ⟨hrst, htick⟩ := ht
  simp [nextInstr, selectWord, hrst, htick, hg]

/-- Before the gate opens a Control step runs the operation that `gate` selects (30_encoding.md R68). -/
theorem nextInstr_of_gate {s : State} {i : Instr} (hg : s.gate ≠ .run) (hc : ControlPins (pinsNow s))
    (hd : decodeG (gateWord s.gate) = .ok i) : nextInstr s = some i := by
  obtain ⟨hrst, htick⟩ := hc
  simp [nextInstr, selectWord, hrst, htick, hg, decode, hd]

/-- GATE.PRESS that sees the press (43_start_gate_reset.md R120). -/
theorem exec_gatePress_pressed {s : State} (h : startIn s = true) :
    exec .gatePress s = .next { s with gate := .waitRelease } := by
  simp only [exec, execGatePress, if_pos h]

/-- GATE.PRESS that sees no press repeats (43_start_gate_reset.md R120). -/
theorem exec_gatePress_waits {s : State} (h : startIn s = false) : exec .gatePress s = .next s := by
  simp only [exec, execGatePress, h, Bool.false_eq_true, if_false]

/-- Settles O24, by the two values of the start input; G_WAIT_PRESS selects the operation, and a tick is dropped there. -/
theorem gatePressRuns : Obligations.GatePressRuns := by
  refine ⟨rfl, fun s hg => ?_⟩
  have hclosed : s.gate ≠ .run := by simp [hg]
  refine ⟨exec_gatePress_pressed, exec_gatePress_waits, fun _ hc => ?_, nextInstr_dropped_tick hclosed⟩
  exact nextInstr_of_gate hclosed hc (by rw [hg]; rfl)

/-- Settles O26: RESET always goes on with `resetRegisters`, whose fields are the reset values. -/
theorem resetRuns : Obligations.ResetRuns := by
  refine ⟨rfl, fun s _ hrst => nextInstr_of_rst hrst, fun s => ⟨rfl, resetRegisters s, rfl, ?_⟩⟩
  have htable : SameTable s (resetRegisters s) := sameTable_of_params_eq (resetRegisters_params s)
  exact ⟨rfl, rfl, rfl, rfl, rfl, rfl, rfl, rfl, rfl, rfl, rfl, rfl, rfl, rfl, rfl, htable, rfl, rfl⟩

/-- No operation of the Sampler writes `gate` (10_state.md section 1). -/
theorem exec_sampler_gate {i : Instr} {s u : State} (hi : isSampler i = true) (hu : exec i s = .next u) :
    u.gate = s.gate := by
  obtain ⟨_, _, _, rfl, -⟩ := sampler_next hi hu
  rfl

/-- No operation of the Control Loop writes `gate` (10_state.md section 1). -/
theorem exec_loop_gate {i : Instr} {s u : State} (hd : decodeC (clPcWord s.clPc) = .ok i) (hu : exec i s = .next u) :
    u.gate = s.gate := by
  obtain ⟨-, -, rfl⟩ | ⟨-, -, rfl⟩ | ⟨-, -, rfl⟩ | ⟨-, -, r, -, rfl⟩ |
    ⟨-, -, r, -, ⟨-, rfl⟩ | ⟨-, -, rfl⟩ | ⟨-, -, n, -, rfl⟩⟩ | ⟨-, -, r, n, -, -, rfl⟩ | ⟨-, -, rfl⟩ := loop_cases hd hu
  · rfl
  · rw [goTo_gate]
    split <;> rfl
  all_goals rfl

/-- Every step keeps R124's half about the registers: RESET establishes it, a dropped tick and the gate's own operations
write nothing else, and the Sampler and the Control Loop run with the gate open and leave it so. -/
theorem step_keeps_closedGate {s t : State} (hs : s.gate ≠ .run → ClosedGateAtReset s) (h : step s = .next t)
    (ht : t.gate ≠ .run) : ClosedGateAtReset t := by
  obtain ⟨-, ⟨-, -, -, hg, rfl⟩ | ⟨-, -, rfl⟩ | ⟨i, u, -, hi, -, -, hg, -, hu, rfl⟩ | ⟨i, u, -, -, -, -, hg, hd, hu, rfl⟩ |
    ⟨-, -, -, hg, rfl⟩ | ⟨-, -, -, hg, rfl⟩⟩ := step_cases h
  · exact closedGate_of (hs hg) _ _ _
  · rfl
  · exact absurd ((exec_sampler_gate hi hu).trans hg) ht
  · exact absurd ((exec_loop_gate hd hu).trans hg) ht
  · split <;> exact closedGate_of (hs (by simp [hg])) _ _ _
  · split <;> exact closedGate_of (hs (by simp [hg])) _ _ _

/-- With the gate closed nothing is selected but RESET and the gate's own operation (43_start_gate_reset.md R124). -/
theorem nextInstr_closedGate {s : State} (hg : s.gate ≠ .run) :
    nextInstr s = none ∨ nextInstr s = some .reset ∨ (s.gate = .waitPress ∧ nextInstr s = some .gatePress) ∨
      (s.gate = .waitRelease ∧ nextInstr s = some .gateRelease) := by
  cases hrst : (pinsNow s).rst with
  | true => exact .inr (.inl (nextInstr_of_rst hrst))
  | false =>
    cases htick : (pinsNow s).tick with
    | true => exact .inl (nextInstr_dropped_tick hg ⟨hrst, htick⟩)
    | false =>
      have hsel {i : Instr} (hd : decodeG (gateWord s.gate) = .ok i) := nextInstr_of_gate hg ⟨hrst, htick⟩ hd
      cases hgate : s.gate with
      | waitPress => exact .inr (.inr (.inl ⟨rfl, hsel (by rw [hgate]; rfl)⟩))
      | waitRelease => exact .inr (.inr (.inr ⟨rfl, hsel (by rw [hgate]; rfl)⟩))
      | run => exact absurd hgate hg

/-- Settles O42: the registers' half is kept by every step of the run, and the selection needs the closed gate alone. -/
theorem closedGateHoldsResetValues : Obligations.ClosedGateHoldsResetValues := by
  intro p ins t _ hrun hg
  have hparams : t.params = p := core_run_params hrun
  have hreset : ClosedGateAtReset t :=
    core_run_keeps (P := fun u => u.gate ≠ .run → ClosedGateAtReset u) (fun _ _ hu hs => step_keeps_closedGate hu hs)
      (fun _ => rfl) hrun hg
  exact ⟨hparams ▸ hreset, nextInstr_closedGate hg⟩

end Sys2Proof.Machine
end


section
/-! SUPPORT. Selector words and operations determine each other, format by format (30_encoding.md R60, R66 to R69). -/

namespace Sys2Proof.Machine

/-- N_PHASE only bounds format S: below it the operation is that of the widest block (30_encoding.md R66, R69). -/
theorem decodeS_eq_sixteen {n : Nat} {p : PhaseWord} (h : p.toNat < n) : decodeS n p = decodeS 16 p := by
  simp only [decodeS, if_neg (Nat.not_le.mpr h), if_neg (Nat.not_le.mpr p.isLt)]

/-- The row 001x of TICK.IDLE (30_encoding.md R66). -/
theorem decodeS_sixteen_tickIdle23 : ∀ x, decodeS 16 ((1 : BitVec 3) ++ x) = .ok (.tickIdle23 x) := by decide

/-- The row 01xx of TICK.IDLE (30_encoding.md R66). -/
theorem decodeS_sixteen_tickIdle47 : ∀ x, decodeS 16 ((1 : BitVec 2) ++ x) = .ok (.tickIdle47 x) := by decide

/-- The row 1xxx of TICK.IDLE, which is 100x at N_PHASE = 10 (30_encoding.md R66). -/
theorem decodeS_sixteen_tickIdle8up : ∀ x, decodeS 16 ((1 : BitVec 1) ++ x) = .ok (.tickIdle8up x) := by decide

/-- Settles O1: the words of formats C, G and R are single values; a phase below N_PHASE is decoded as at N_PHASE = 16, where
each row of format S has at most eight words. -/
theorem decodeOfEncode : Obligations.DecodeOfEncode := by
  intro n i hwf
  have hphase {p : PhaseWord} (hp : i.phase? = some p) : p.toNat < n := by simpa [Instr.wf, hp] using hwf
  cases i
  case tickBegin => exact decodeS_zero (hphase rfl)
  case tickEnd => exact decodeS_one (hphase rfl)
  case tickIdle23 x => exact (decodeS_eq_sixteen (hphase rfl)).trans (decodeS_sixteen_tickIdle23 x)
  case tickIdle47 x => exact (decodeS_eq_sixteen (hphase rfl)).trans (decodeS_sixteen_tickIdle47 x)
  case tickIdle8up x => exact (decodeS_eq_sixteen (hphase rfl)).trans (decodeS_sixteen_tickIdle8up x)
  all_goals rfl

/-- A word of format S is reserved from N_PHASE on (30_encoding.md R69). -/
theorem decodeS_reserved {n : Nat} {p : PhaseWord} (h : n ≤ p.toNat) : decodeS n p = .error .reservedPhase :=
  if_pos h

/-- Every word of format C but 7 is the word of a value of `cl_pc`, the one it is read as (30_encoding.md R67, R69). -/
theorem clPcOfWord_word {w : BitVec 3} (hw : w ≠ 7) : ∃ c, clPcOfWord w = some c ∧ clPcWord c = w := by
  have h : ∀ v : BitVec 3, v ≠ 7 → (clPcOfWord v).map clPcWord = some v := by decide
  exact Option.map_eq_some_iff.mp (h w hw)

/-- The words of format C: 7 selects nothing, every other one the operation that encodes to it (30_encoding.md R67, R69). -/
theorem decodeC_cases (w : BitVec 3) :
    (w = 7 ∧ decodeC w = .error .reservedClPc) ∨
    (w ≠ 7 ∧ ∃ i, decodeC w = .ok i ∧ encode i = .C w ∧ isControlLoop i = true) := by
  by_cases hw : w = 7
  · exact .inl ⟨hw, by rw [hw]; rfl⟩
  · obtain ⟨c, -, rfl⟩ := clPcOfWord_word hw
    obtain ⟨i, hi, hl, he⟩ := decodeC_ok c
    exact .inr ⟨hw, i, hi, he, hl⟩

/-- The words of format G: 0 and 1 select the gate's operations, 2 and 3 select nothing (30_encoding.md R68, R69). -/
theorem decodeG_cases : ∀ w : BitVec 2,
    (w = 0 ∧ decodeG w = .ok .gatePress) ∨ (w = 1 ∧ decodeG w = .ok .gateRelease) ∨
    (w = 2 ∧ decodeG w = .error .gateRunSelectsNone) ∨ (w = 3 ∧ decodeG w = .error .reservedGate) := by decide

/-- The words of format R: 1 selects RESET, 0 nothing (30_encoding.md R68). -/
theorem decodeR_cases : ∀ w : BitVec 1,
    (w = 1 ∧ decodeR w = .ok .reset) ∨ (w = 0 ∧ decodeR w = .error .rstLowSelectsNone) := by decide

/-- The phase of an operation of format S is its word (30_encoding.md R66). -/
theorem phase?_of_encode_S : ∀ {i : Instr} {p : PhaseWord}, encode i = .S p → i.phase? = some p
  | .tickBegin, _, h | .tickEnd, _, h | .tickIdle23 _, _, h | .tickIdle47 _, _, h | .tickIdle8up _, _, h => by
    cases h; rfl

/-- An operation of the Control Loop has no phase (30_encoding.md R67). -/
theorem phase?_of_isControlLoop : ∀ {i : Instr}, isControlLoop i = true → i.phase? = none
  | .clTest, _ | .clRead, _ | .clClear, _ | .clRender, _ | .clCmp, _ | .clTrans, _ | .clReset, _ => rfl

/-- Settles O2, format by format: a decoded word of format S is below N_PHASE, and the other formats have finitely many. -/
theorem encodeOfDecode : Obligations.EncodeOfDecode := by
  intro n w i h
  cases w with
  | S p =>
    obtain hp | hp := Nat.lt_or_ge p.toNat n
    · obtain ⟨k, hk, -, he⟩ := decodeS_ok hp
      obtain rfl : k = i := Except.ok.inj (hk.symm.trans h)
      exact ⟨he, by simp [Instr.wf, phase?_of_encode_S he, hp]⟩
    · cases (decodeS_reserved hp).symm.trans h
  | C c =>
    obtain ⟨-, hc⟩ | ⟨-, k, hk, he, hl⟩ := decodeC_cases c
    · cases hc.symm.trans h
    · obtain rfl : k = i := Except.ok.inj (hk.symm.trans h)
      exact ⟨he, by rw [Instr.wf, phase?_of_isControlLoop hl]⟩
  | G g =>
    obtain ⟨rfl, hg⟩ | ⟨rfl, hg⟩ | ⟨-, hg⟩ | ⟨-, hg⟩ := decodeG_cases g <;> cases hg.symm.trans h
    · exact ⟨rfl, rfl⟩
    · exact ⟨rfl, rfl⟩
  | R r =>
    obtain ⟨rfl, hr⟩ | ⟨-, hr⟩ := decodeR_cases r <;> cases hr.symm.trans h
    exact ⟨rfl, rfl⟩

/-- A word that selects an operation is no error. -/
theorem not_error_of_ok {n : Nat} {w : SelectorWord} {i : Instr} (h : decode n w = .ok i) :
    ¬ ∃ e, decode n w = .error e := by
  rintro ⟨e, he⟩
  cases h.symm.trans he

/-- Settles O5, format by format: each format's words are split into those that select an operation and the rest. -/
theorem wordsThatSelectNothing : Obligations.WordsThatSelectNothing := by
  intro n w
  cases w with
  | S p =>
    obtain hp | hp := Nat.lt_or_ge p.toNat n
    · obtain ⟨i, hi, -⟩ := decodeS_ok hp
      exact iff_of_false (not_error_of_ok hi) (Nat.not_le.mpr hp)
    · exact iff_of_true ⟨_, decodeS_reserved hp⟩ hp
  | C c =>
    obtain ⟨hc, he⟩ | ⟨hc, i, hi, -⟩ := decodeC_cases c
    · exact iff_of_true ⟨_, he⟩ hc
    · exact iff_of_false (not_error_of_ok hi) hc
  | G g =>
    obtain ⟨rfl, hi⟩ | ⟨rfl, hi⟩ | ⟨hg, he⟩ | ⟨hg, he⟩ := decodeG_cases g
    · exact iff_of_false (not_error_of_ok hi) (by simp)
    · exact iff_of_false (not_error_of_ok hi) (by simp)
    · exact iff_of_true ⟨_, he⟩ (.inl hg)
    · exact iff_of_true ⟨_, he⟩ (.inr hg)
  | R r =>
    obtain ⟨rfl, hi⟩ | ⟨hr, he⟩ := decodeR_cases r
    · exact iff_of_false (not_error_of_ok hi) (by simp)
    · exact iff_of_true ⟨_, he⟩ hr

/-- Settles O6: each of the eight words computes. -/
theorem tableWordsSanity : Obligations.TableWordsSanity :=
  ⟨rfl, rfl, rfl, rfl, rfl, rfl, rfl, rfl⟩

/-- Settles O7: the code as a number is `inputOf_eq_ofNat`; the field is the same quotient, and the sentinel is one byte. -/
theorem sensorByteDecoding : Obligations.SensorByteDecoding := by
  intro b
  refine ⟨?_, ?_, ?_⟩
  · rw [inputOf_eq_ofNat, BitVec.toNat_ofNat, Nat.mod_mod]
  · apply BitVec.eq_of_toNat_eq
    simp [inputOf_eq_ofNat, byteCode, Nat.shiftRight_eq_div_pow]
  · rw [isSentinel_iff, ← BitVec.toNat_inj]
    rfl

end Sys2Proof.Machine
end


section
/-! SUPPORT. The ROM word of a State record (30_encoding.md R65): a field above the low part of a concatenation is read in the
high part, and two abutting fields are read as one. -/

namespace Sys2Proof.Machine

/-- A field that starts at bit 0 and has the low part's width is the low part. -/
theorem extractLsb'_append_low {a b k : Nat} {x : BitVec a} {y : BitVec b} (h : k = 0) :
    (x ++ y).extractLsb' k b = y := by
  subst h
  exact BitVec.extractLsb'_append_eq_right

/-- A field that starts at bit 0 and has the whole width is the word. -/
theorem extractLsb'_whole {a k : Nat} {x : BitVec a} (h : k = 0) : x.extractLsb' k a = x := by
  subst h
  exact BitVec.extractLsb'_eq_self

/-- One bit of a word as a field of width 1, as `packRecord` writes it. -/
theorem ofBool_getLsbD {m : Nat} (v : BitVec m) (k : Nat) : BitVec.ofBool (v.getLsbD k) = v.extractLsb' k 1 := by
  ext i hi
  obtain rfl : i = 0 := by omega
  simp

/-- A field of width 1 determines its bit. -/
theorem ofBool_injective {a b : Bool} (h : BitVec.ofBool a = BitVec.ofBool b) : a = b := by
  simpa using congrArg (BitVec.getLsbD · 0) h

/-- Settles O8: each field is reached by leaving the fields below it out, one concatenation after another; the indicators are
fields of width 1, and the dwell fits its field. -/
theorem recordWordLayout : Obligations.RecordWordLayout := by
  intro w r hd
  unfold packRecord
  refine ⟨?_, ?_, ofBool_injective ?_, ofBool_injective ?_, ?_, ?_, ?_, ?_, ?_⟩
  case refine_5 =>
    simp (disch := omega) only [BitVec.extractLsb'_append_eq_of_le, extractLsb'_append_low, BitVec.toNat_ofNat,
      Nat.mod_eq_of_lt hd]
  all_goals
    simp (disch := omega) only [ofBool_getLsbD, BitVec.extractLsb'_append_eq_of_le, extractLsb'_append_low,
      extractLsb'_whole]

/-- Packing the fields of a word puts each of them back above the ones before it. -/
theorem packRecord_unpackRecord (w : Nat) (v : BitVec (4 + 4 + 4 + 4 + w + 1 + 1 + 16 + 16)) :
    packRecord w (unpackRecord w v) = v := by
  simp (disch := omega) only [packRecord, unpackRecord, ofBool_getLsbD, BitVec.ofNat_toNat, BitVec.setWidth_eq,
    BitVec.extractLsb'_append_extractLsb'_eq_extractLsb']
  exact extractLsb'_whole rfl

/-- Settles O9: one way by the layout (O8), the other by putting the abutting fields together again. -/
theorem recordWordRoundTrip : Obligations.RecordWordRoundTrip := by
  refine fun w => ⟨fun r hd => ?_, packRecord_unpackRecord w⟩
  obtain ⟨hl, hr, h0, h1, hdw, hn0, hn1, hn2, hn3⟩ := recordWordLayout w r hd
  simp only [unpackRecord, hl, hr, h0, h1, hdw, hn0, hn1, hn2, hn3]

end Sys2Proof.Machine
end


section
/-! SUPPORT. No table that meets the rules of 40_transition_engine.md section 2 is refused. -/

namespace Sys2Proof.Machine

/-- Every record of a table with at most 16 States is one that TableRead reaches (20_memory.md R41, R47). -/
theorem exists_tableRead_of_mem {p : Params} {r : StateRecord} (hn : p.nStates ≤ 16) (h : r ∈ p.table) :
    ∃ i : StateIdx, i.toNat < p.nStates ∧ tableRead p i = some r := by
  obtain ⟨k, hk, rfl⟩ := List.mem_iff_getElem.mp h
  have hidx : (BitVec.ofNat 4 k).toNat = k := BitVec.toNat_ofNat k 4 ▸ Nat.mod_eq_of_lt (lt_of_lt_of_le hk hn)
  exact ⟨BitVec.ofNat 4 k, by rw [hidx]; exact hk, by rw [tableRead, hidx]; exact List.getElem?_eq_getElem hk⟩

/-- All four edges of a record exist when the edge of each Input code does (40_transition_engine.md R81). -/
theorem recordTotal_of_recordNext {n : Nat} {r : StateRecord} (h : ∀ c, (recordNext r c).toNat < n) :
    recordTotal n r = true := by
  simp only [recordTotal, Bool.and_eq_true, decide_eq_true_eq]
  exact ⟨⟨⟨h 0, h 1⟩, h 2⟩, h 3⟩

/-- A record whose edges all lead to the terminal State and whose levels are 0 is a terminal one (40_transition_engine.md R82,
R83). -/
theorem terminalOk_of_recordNext {term : StateIdx} {r : StateRecord} (h : ∀ c, recordNext r c = term) (hl : r.left = 0)
    (hr : r.right = 0) : terminalOk term r = true := by
  simp only [terminalOk, Bool.and_eq_true, beq_iff_eq]
  exact ⟨⟨⟨⟨⟨h 0, h 1⟩, h 2⟩, h 3⟩, hl⟩, hr⟩

/-- Settles O11: each check of `paramsWf` is one of the rules; a rule about every State is one about every record, as each
record has an index. -/
theorem tableMeetingRulesIsRun : Obligations.TableMeetingRulesIsRun := by
  intro p h2 h16 hn hstart hrec ⟨r, hr, hloop, hl, hright⟩
  have hmem {q : StateRecord} (hq : q ∈ p.table) :
      (∀ c, (recordNext q c).toNat < p.nStates) ∧ q.dwell < 2 ^ p.wElapsed := by
    obtain ⟨i, hi, hread⟩ := exists_tableRead_of_mem hn hq
    obtain ⟨q', hq', hrules⟩ := hrec i hi
    obtain rfl : q = q' := Option.some.inj (hread.symm.trans hq')
    exact hrules
  refine (paramsWf_iff p).mpr ⟨h2, h16, by omega, hn, hstart, tableRead_lt hr, ?_, ?_, r, hr, ?_⟩
  · exact fun q hq => recordTotal_of_recordNext (hmem hq).1
  · exact fun q hq => (hmem hq).2
  · exact terminalOk_of_recordNext hloop hl hright

end Sys2Proof.Machine
end


section
/-! SUPPORT. One operation: what stops it, and the operations that the other sections leave (10_state.md, 41_sampler.md R91,
42_control_loop.md R109, 43_start_gate_reset.md R121). -/

namespace Sys2Proof.Machine

/-- An operation that reads the State table outside it, and the fault that gives (20_memory.md R44). -/
def ReadsOutsideTable (i : Instr) (s : State) (f : Fault) : Prop :=
  (tableRead s.params s.cur = none ∧ f = .noRecord s.cur ∧ (i = .clRender ∨ i = .clCmp ∨ i = .clTrans)) ∨
  (∃ r, tableRead s.params s.cur = some r ∧ tableRead s.params (recordNext r s.input) = none ∧
    f = .noRecord (recordNext r s.input) ∧
    (i = .clTrans ∨ (i = .clCmp ∧ s.params.atomicDwellReset = true ∧ r.dwell ≤ s.elapsed)))

/-- Taking the edge where the successor has no record (20_memory.md R44). -/
theorem takeEdge_none {s : State} {r : StateRecord} (k : State → Host.Outcome State Fault Refusal)
    (hr : tableRead s.params s.cur = some r) (hn : tableRead s.params (recordNext r s.input) = none) :
    takeEdge s k = .fault (.noRecord (recordNext r s.input)) := by
  rw [takeEdge, withRecord_some _ hr, withRecord_none _ hn]

/-- CL.CMP once the dwell is over, in the atomic variant (42_control_loop.md R109). -/
theorem exec_clCmp_atomic {s : State} {r : StateRecord} (ha : s.params.atomicDwellReset = true)
    (hr : tableRead s.params s.cur = some r) (hd : r.dwell ≤ s.elapsed) :
    exec .clCmp s = takeEdge s fun t => .next (goTo .test (restartDwell t)) := by
  simp only [exec, execClCmp]
  rw [withRecord_some _ hr, if_pos ((dwellExpired_iff s r).mpr hd), if_pos ha]

/-- CL.TRANS where the successor has no record (42_control_loop.md R106). -/
theorem exec_clTrans_none {s : State} {r : StateRecord} (hr : tableRead s.params s.cur = some r)
    (hn : tableRead s.params (recordNext r s.input) = none) :
    exec .clTrans s = .fault (.noRecord (recordNext r s.input)) :=
  takeEdge_none (fun t => .next (goTo .reset t)) hr hn

/-- What each operation answers: a next state, or the fault of a read outside the table; none refuses. -/
theorem exec_next_or_noRecord (i : Instr) (s : State) :
    (∃ t, exec i s = .next t) ∨ ∃ f, exec i s = .fault f ∧ ReadsOutsideTable i s f := by
  cases hr : tableRead s.params s.cur with
  | none =>
    cases i
    case clRender => exact .inr ⟨_, withRecord_none _ hr, .inl ⟨hr, rfl, .inl rfl⟩⟩
    case clCmp => exact .inr ⟨_, withRecord_none _ hr, .inl ⟨hr, rfl, .inr (.inl rfl)⟩⟩
    case clTrans => exact .inr ⟨_, withRecord_none _ hr, .inl ⟨hr, rfl, .inr (.inr rfl)⟩⟩
    all_goals exact .inl ⟨_, rfl⟩
  | some r =>
    cases i
    case clRender => exact .inl ⟨_, exec_clRender hr⟩
    case clCmp =>
      obtain hd | hd := Nat.lt_or_ge s.elapsed r.dwell
      · exact .inl ⟨_, exec_clCmp_before hr hd⟩
      · cases ha : s.params.atomicDwellReset with
        | false => exact .inl ⟨_, exec_clCmp_expired ha hr hd⟩
        | true =>
          rw [exec_clCmp_atomic ha hr hd]
          cases hn : tableRead s.params (recordNext r s.input) with
          | none => exact .inr ⟨_, takeEdge_none _ hr hn, .inr ⟨r, hr, hn, rfl, .inr ⟨rfl, ha, hd⟩⟩⟩
          | some n => exact .inl ⟨_, takeEdge_some _ hr hn⟩
    case clTrans =>
      cases hn : tableRead s.params (recordNext r s.input) with
      | none => exact .inr ⟨_, exec_clTrans_none hr hn, .inr ⟨r, hr, hn, rfl, .inl rfl⟩⟩
      | some n => exact .inl ⟨_, exec_clTrans hr hn⟩
    all_goals exact .inl ⟨_, rfl⟩

/-- Settles O12: the faults are those of the table reads, and `exec_next_or_noRecord` has no other. -/
theorem readOutsideTableStops : Obligations.ReadOutsideTableStops := by
  refine fun s => ⟨fun hr => ?_, fun r hr hn => ⟨exec_clTrans_none hr hn, fun ha hd => ?_⟩, fun i f hf => ?_⟩
  · exact ⟨withRecord_none _ hr, withRecord_none _ hr, withRecord_none _ hr⟩
  · rw [exec_clCmp_atomic ha hr hd, takeEdge_none _ hr hn]
  · obtain ⟨t, ht⟩ | ⟨f', hf', hread⟩ := exec_next_or_noRecord i s
    · cases ht.symm.trans hf
    · obtain rfl : f' = f := Host.Outcome.fault.inj (hf'.symm.trans hf)
      exact hread

/-- Phase 1 advances to 2, or to 0 in the smallest block (41_sampler.md R91, R95). -/
theorem incMod_one (n : Nat) : incMod n 1 = if n = 2 then 0 else 2 :=
  if_congr (eq_comm (a := 2)) rfl rfl

/-- Settles O14: TICK.END publishes the byte before it counts the tick, and phase 1 both advances to 2 and selects it. -/
theorem tickEndRuns : Obligations.TickEndRuns := by
  rintro s _ hphase hn rfl
  refine ⟨?_, rfl, rfl, fun _ hg ht => nextInstr_of_tick hg ht ?_⟩
  · rw [← incMod_one, ← hphase]
    rfl
  · rw [hphase]
    exact decodeS_one hn

/-- Settles O21: once the dwell is over CL.CMP takes the edge and restarts the dwell, else it only goes on. -/
theorem atomicClCmpRuns : Obligations.AtomicClCmpRuns := by
  refine fun s r n ha hr hn => ⟨fun hd => ?_, exec_clCmp_before hr⟩
  rw [exec_clCmp_atomic ha hr hd, takeEdge_some _ hr hn]
  rfl

/-- GATE.RELEASE that sees the release (43_start_gate_reset.md R121). -/
theorem exec_gateRelease_released {s : State} (h : startIn s = false) :
    exec .gateRelease s = .next { s with gate := .run } := by
  simp only [exec, execGateRelease, h, Bool.false_eq_true, if_false]

/-- GATE.RELEASE while the control is pressed repeats (43_start_gate_reset.md R121). -/
theorem exec_gateRelease_waits {s : State} (h : startIn s = true) : exec .gateRelease s = .next s := by
  simp only [exec, execGateRelease, if_pos h]

/-- Settles O25, by the two values of the start input. -/
theorem gateReleaseRuns : Obligations.GateReleaseRuns :=
  ⟨rfl, fun _ _ => ⟨exec_gateRelease_released, exec_gateRelease_waits⟩⟩

end Sys2Proof.Machine
end


section
/-! SUPPORT. The dispatch of a step (30_encoding.md R60): the operation of each value of the pins and selectors, the refusals,
and a word placed in the selectors. -/

namespace Sys2Proof.Machine

/-- Settles O31: a step hands the operation's outcome over, with the pin sample of a next state used up. -/
theorem stepRunsDecodedOperation : Obligations.StepRunsDecodedOperation := by
  intro s w i hp hw hd
  have hstep : step s = afterStep (exec i s) := step_of_instr hp (by simp [nextInstr, hw, hd])
  refine ⟨fun t ht => ?_, fun f hf => ?_, fun r hr => ?_⟩
  · obtain ⟨-, henv, hdraw⟩ := exec_next_frame ht
    rw [hstep, ht, ← henv, ← hdraw]
    rfl
  · rw [hstep, hf]
    rfl
  · rw [hstep, hr]
    rfl

/-- A tick before the gate opens takes a step and changes no register (41_sampler.md R93). -/
theorem step_dropped_tick {s : State} (hp : paramsWf s.params = true) (hg : s.gate ≠ .run) (ht : TickPins (pinsNow s)) :
    step s = .next (usePins s) := by
  obtain ⟨hrst, htick⟩ := ht
  simp [step, hp, selectWord, hrst, htick, hg]

/-- With the gate open a Control step runs the operation that `cl_pc` selects (30_encoding.md R67). -/
theorem nextInstr_of_loop {s : State} {i : Instr} (hg : s.gate = .run) (hc : ControlPins (pinsNow s))
    (hd : decodeC (clPcWord s.clPc) = .ok i) : nextInstr s = some i := by
  obtain ⟨hrst, htick⟩ := hc
  simp [nextInstr, selectWord, hrst, htick, hg, decode, hd]

/-- Settles O32: in each case the selector decodes, `phase` because it is below N_PHASE. -/
theorem stepDispatchOrder : Obligations.StepDispatchOrder := by
  intro s hp hphase
  refine ⟨fun hr => ?_, fun hr ht hg => ?_, fun hr ht hg => ?_, fun hr ht hg => ?_, fun hr ht hg => ?_, fun hr ht hg => ?_⟩
  · exact step_of_instr hp (nextInstr_of_rst hr)
  · exact step_dropped_tick hp hg ⟨hr, ht⟩
  · obtain ⟨i, hd, -, he⟩ := decodeS_ok hphase
    exact ⟨i, he, step_of_instr hp (nextInstr_of_tick hg ⟨hr, ht⟩ hd)⟩
  · exact step_of_instr hp (nextInstr_of_gate (by simp [hg]) ⟨hr, ht⟩ (by rw [hg]; rfl))
  · exact step_of_instr hp (nextInstr_of_gate (by simp [hg]) ⟨hr, ht⟩ (by rw [hg]; rfl))
  · obtain ⟨i, hd, -, he⟩ := decodeC_ok s.clPc
    exact ⟨i, he, step_of_instr hp (nextInstr_of_loop hg ⟨hr, ht⟩ hd)⟩

/-- No step refuses the operation it has selected. -/
theorem afterStep_exec_ne_refused (i : Instr) (s : State) (r : Refusal) : afterStep (exec i s) ≠ .refused r := by
  obtain ⟨t, ht⟩ | ⟨f, hf, -⟩ := exec_next_or_noRecord i s
  · rw [ht]; exact nofun
  · rw [hf]; exact nofun

/-- A tick with the gate open at a phase of N_PHASE or more is refused (30_encoding.md R69). -/
theorem step_reservedPhase {s : State} (hp : paramsWf s.params = true) (hg : s.gate = .run) (ht : TickPins (pinsNow s))
    (hphase : s.params.nPhase ≤ s.phase.toNat) : step s = .refused (.reservedSelector .reservedPhase) := by
  obtain ⟨hrst, htick⟩ := ht
  simp [step, hp, selectWord, hrst, htick, hg, decode, decodeS_reserved hphase]

/-- The only selector whose word can be reserved is `phase`: `cl_pc` and `gate` hold no reserved value, and `gate` selects only
while it is not G_RUN (30_encoding.md R69). -/
theorem selectWord_error {s : State} {w : SelectorWord} {n : Nat} {e : DecodeError} (hw : selectWord s = some w)
    (he : decode n w = .error e) :
    TickPins (pinsNow s) ∧ s.gate = .run ∧ n ≤ s.phase.toNat ∧ e = .reservedPhase := by
  unfold selectWord at hw
  split at hw
  · cases hw
    cases he
  split at hw
  case isTrue hr ht =>
    split at hw
    case isTrue hg =>
      cases hw
      obtain hp | hp := Nat.lt_or_ge s.phase.toNat n
      · obtain ⟨i, hi, -⟩ := decodeS_ok hp
        cases hi.symm.trans he
      · exact ⟨⟨by simpa using hr, ht⟩, hg, hp, Except.error.inj (he.symm.trans (decodeS_reserved hp))⟩
    case isFalse => cases hw
  split at hw
  · cases hw
    obtain ⟨i, hi, -⟩ := decodeC_ok s.clPc
    cases hi.symm.trans he
  case isFalse hg =>
    cases hw
    cases hgate : s.gate with
    | waitPress => rw [hgate] at he; cases he
    | waitRelease => rw [hgate] at he; cases he
    | run => exact absurd hgate hg

/-- What a refused step was: the parameters are ill formed, or the selected word is reserved. -/
theorem step_refused {s : State} {r : Refusal} (h : step s = .refused r) :
    (paramsWf s.params = false ∧ r = .illFormedParams) ∨
    (paramsWf s.params = true ∧ ∃ w e, selectWord s = some w ∧ decode s.params.nPhase w = .error e ∧
      r = .reservedSelector e) := by
  unfold step at h
  split at h
  case isFalse hp =>
    cases h
    exact .inl ⟨by simpa using hp, rfl⟩
  case isTrue hp =>
    split at h
    case h_1 => cases h
    case h_2 w hw =>
      split at h
      case h_1 => exact absurd h (afterStep_exec_ne_refused _ s r)
      case h_2 e he =>
        cases h
        exact .inr ⟨hp, w, e, hw, he, rfl⟩

/-- Settles O33: no operation refuses, so a refusal is the check of the parameters or a reserved word, which only `phase`
holds. -/
theorem stepRefusals : Obligations.StepRefusals := by
  refine fun s r => ⟨fun h => ?_, ?_⟩
  · obtain hp | ⟨hp, w, e, hw, he, rfl⟩ := step_refused h
    · exact .inl hp
    · obtain ⟨⟨hr, ht⟩, hg, hphase, rfl⟩ := selectWord_error hw he
      exact .inr ⟨hp, hr, ht, hg, hphase, rfl⟩
  · rintro (⟨hp, rfl⟩ | ⟨hp, hr, ht, hg, hphase, rfl⟩)
    · simp [step, hp]
    · exact step_reservedPhase hp hg ⟨hr, ht⟩ hphase

/-- The parameters a word of the opcode table is run under are accepted and have its N_PHASE (30_encoding.md section 5). -/
theorem tableParams_wf (p : Params) : paramsWf (tableParams p) = true ∧ (tableParams p).nPhase = Params.smallest.nPhase := by
  unfold tableParams
  split
  case isTrue h => simpa using h
  case isFalse => decide

/-- A word that selects an operation is the one the next step selects once it is placed (30_encoding.md R60). -/
theorem selectWord_placeWord {n : Nat} {s : State} {w : SelectorWord} {i : Instr} (h : decode n w = .ok i) :
    selectWord (placeWord s w) = some w := by
  cases w with
  | S p => rfl
  | C c =>
    obtain ⟨-, hc⟩ | ⟨hc, -⟩ := decodeC_cases c
    · cases hc.symm.trans h
    · obtain ⟨pc, hpc, rfl⟩ := clPcOfWord_word hc
      simp [placeWord, selectWord, pinsNow, pinsFor, hpc]
  | G g =>
    obtain ⟨rfl, -⟩ | ⟨rfl, -⟩ | ⟨-, hg⟩ | ⟨-, hg⟩ := decodeG_cases g
    · rfl
    · rfl
    · cases hg.symm.trans h
    · cases hg.symm.trans h
  | R r =>
    obtain ⟨rfl, -⟩ | ⟨-, hr⟩ := decodeR_cases r
    · rfl
    · cases hr.symm.trans h

/-- Placing a word leaves the parameters. -/
@[simp] theorem placeWord_params (s : State) (w : SelectorWord) : (placeWord s w).params = s.params := by
  cases w <;> rfl

/-- A word of the opcode table that decodes is the word of a selector which selects the operation. -/
theorem tableWord_of_decodeTableWord {nbits w : Nat} {i : Instr} (h : decodeTableWord nbits w = some i) :
    ∃ sw, tableWord nbits w = some sw ∧ decode Params.smallest.nPhase sw = .ok i := by
  unfold decodeTableWord at h
  split at h
  case h_1 => cases h
  case h_2 sw hsw =>
    split at h
    case h_1 k hk =>
      cases h
      exact ⟨sw, hsw, hk⟩
    case h_2 => cases h

/-- Settles O34: the placed word is selected, and decodes under the placed parameters as in the table. -/
theorem placedWordRunsNext : Obligations.PlacedWordRunsNext := by
  intro s nbits w i h
  obtain ⟨sw, hsw, hd⟩ := tableWord_of_decodeTableWord h
  obtain ⟨hp, hn⟩ := tableParams_wf s.params
  have hplace : s.withFetchWord nbits w = placeWord { s with params := tableParams s.params } sw := by
    simp only [State.withFetchWord, hsw]
  rw [hplace]
  refine step_of_instr (by simpa using hp) ?_
  simp only [nextInstr, selectWord_placeWord hd, placeWord_params, hn, hd]

end Sys2Proof.Machine
end


section
/-! SUPPORT. What each operation leaves unchanged (10_state.md section 1), in every state. -/

namespace Sys2Proof.Machine

/-- Settles O27: the Sampler's operations count the tick, and change at most the sample, its flag and `begin_count` besides. -/
theorem samplerFrame : Obligations.SamplerFrame := by
  intro i s t hi h
  obtain ⟨sa, sr, bc, rfl, -, hsample, -, hbegin⟩ := sampler_next hi h
  exact ⟨rfl, rfl, rfl, rfl, rfl, rfl, rfl, rfl, rfl, rfl, fun _ => rfl, rfl, rfl, hsample, hbegin⟩

/-- Settles O29: the gate's operations answer the state itself or the state with `gate` moved on. -/
theorem startGateFrame : Obligations.StartGateFrame := by
  intro i s t hi h
  obtain rfl | rfl := hi
  · cases hp : startIn s with
    | false => cases (exec_gatePress_waits hp).symm.trans h; exact ⟨rfl, fun _ => rfl⟩
    | true => cases (exec_gatePress_pressed hp).symm.trans h; exact ⟨rfl, fun _ => rfl⟩
  · cases hp : startIn s with
    | false => cases (exec_gateRelease_released hp).symm.trans h; exact ⟨rfl, fun _ => rfl⟩
    | true => cases (exec_gateRelease_waits hp).symm.trans h; exact ⟨rfl, fun _ => rfl⟩

/-- CL.CMP takes the edge in the atomic variant once the dwell is over (42_control_loop.md R109). -/
theorem cmpTakesEdge_iff {s : State} {r : StateRecord} (hr : tableRead s.params s.cur = some r) :
    cmpTakesEdge s = true ↔ s.params.atomicDwellReset = true ∧ r.dwell ≤ s.elapsed := by
  simp only [cmpTakesEdge, hr, Bool.and_eq_true, dwellExpired_iff]

/-- What CL.RENDER that goes on does (42_control_loop.md R104). -/
theorem exec_clRender_next {s t : State} (h : exec .clRender s = .next t) :
    ∃ r, tableRead s.params s.cur = some r ∧ t = goTo .cmp (renderIndicators r s) := by
  obtain ⟨r, hr, h⟩ := withRecord_next h
  cases h
  exact ⟨r, hr, rfl⟩

/-- What CL.TRANS that goes on does (42_control_loop.md R106). -/
theorem exec_clTrans_next {s t : State} (h : exec .clTrans s = .next t) :
    ∃ r n, tableRead s.params s.cur = some r ∧ tableRead s.params (recordNext r s.input) = some n ∧
      t = goTo .reset (setDrive n.left n.right { s with cur := recordNext r s.input }) := by
  simp only [exec, execClTrans] at h
  obtain ⟨r, n, hr, hn, h⟩ := takeEdge_next h
  cases h
  exact ⟨r, n, hr, hn, rfl⟩

/-- What CL.CMP that goes on does: where it takes the edge the whole of step 3, else only `cl_pc` moves (42_control_loop.md R105,
R109). -/
theorem exec_clCmp_next {s t : State} (h : exec .clCmp s = .next t) :
    (cmpTakesEdge s = false ∧ ∃ pc, t = goTo pc s) ∨
    (cmpTakesEdge s = true ∧ ∃ r n, tableRead s.params s.cur = some r ∧ s.params.atomicDwellReset = true ∧
      r.dwell ≤ s.elapsed ∧ tableRead s.params (recordNext r s.input) = some n ∧
      t = goTo .test (restartDwell (setDrive n.left n.right { s with cur := recordNext r s.input }))) := by
  obtain ⟨r, hr, -⟩ := withRecord_next h
  cases hedge : cmpTakesEdge s with
  | true =>
    obtain ⟨ha, hd⟩ := (cmpTakesEdge_iff hr).mp hedge
    rw [exec_clCmp_atomic ha hr hd] at h
    obtain ⟨r', n, hr', hn, h⟩ := takeEdge_next h
    cases h
    obtain rfl : r = r' := Option.some.inj (hr.symm.trans hr')
    exact .inr ⟨rfl, r, n, hr, ha, hd, hn, rfl⟩
  | false =>
    refine .inl ⟨rfl, ?_⟩
    obtain hd | hd := Nat.lt_or_ge s.elapsed r.dwell
    · cases (exec_clCmp_before hr hd).symm.trans h
      exact ⟨_, rfl⟩
    · have ha : s.params.atomicDwellReset = false := by
        simpa [hedge, hd] using cmpTakesEdge_iff hr
      cases (exec_clCmp_expired ha hr hd).symm.trans h
      exact ⟨_, rfl⟩

/-- Settles O28, operation by operation: each writes the registers that its rule names. -/
theorem controlLoopFrame : Obligations.ControlLoopFrame := by
  intro i s t hi h
  cases i
  case clTest => cases h; simp [SameTable]
  case clRead =>
    by_cases hs : s.sample = 255#8
    · cases (exec_clRead_sentinel ((isSentinel_iff _).mpr hs)).symm.trans h
      simp [SameTable, hs]
    · cases (exec_clRead_latch (mt (isSentinel_iff _).mp hs)).symm.trans h
      simp [SameTable, hs]
  case clClear => cases h; simp [SameTable]
  case clRender =>
    obtain ⟨r, -, rfl⟩ := exec_clRender_next h
    simp [SameTable]
  case clCmp =>
    obtain ⟨-, pc, rfl⟩ | ⟨hedge, r, n, -, -, -, -, rfl⟩ := exec_clCmp_next h
    · simp [SameTable]
    · simp [SameTable, hedge]
  case clTrans =>
    obtain ⟨r, n, -, -, rfl⟩ := exec_clTrans_next h
    simp [SameTable]
  case clReset => cases h; simp [SameTable]
  all_goals cases hi

end Sys2Proof.Machine
end


section
/-! SUPPORT. The invariant: it holds at reset, every step keeps it, and a state that meets it steps (10_state.md section 11,
30_encoding.md section 6, 42_control_loop.md R100 to R103, R109). -/

namespace Sys2Proof.Machine

/-- After RESET, with the gate at any value, the invariant is that of the parameters. -/
theorem goodState_of_closed {s : State} (hp : paramsWf s.params = true) (h : ClosedGateAtReset s) : GoodState s := by
  obtain ⟨hn, -, -, -, hstart, -⟩ := (paramsWf_iff s.params).mp hp
  have hreset {α : Type} (f : State → α) : f s = f { State.initial s.params with
    gate := s.gate, env := s.env, drawIndex := s.drawIndex } := congrArg f h
  have hcur : s.cur = s.params.startIdx := hreset State.cur
  have hphase : s.phase = 0 := hreset State.phase
  have helapsed : s.elapsed = 0 := hreset State.elapsed
  have hpc : s.clPc = .test := hreset State.clPc
  refine ⟨hp, ?_, ?_, ?_, fun _ => h, ?_, ?_⟩
  · rw [hcur]; exact hstart
  · rw [hphase]; exact Nat.lt_of_lt_of_le Nat.zero_lt_two hn
  · rw [helapsed]; exact Nat.two_pow_pos _
  · simp [hpc]
  · simp [hpc]

/-- Settles O35: the reset state is the closed gate's, and the smallest parameters are accepted. -/
theorem invariantAtReset : Obligations.InvariantAtReset :=
  ⟨goodState_of_closed (by decide) rfl, fun _ hp => goodState_of_closed hp rfl⟩

/-- The pin samples of the past and of the future take no part in the invariant. -/
theorem goodState_usePins {s : State} (h : GoodState s) : GoodState (usePins s) := by
  obtain ⟨hp, hcur, hphase, helapsed, hgate, hready, hatomic⟩ := h
  exact ⟨hp, hcur, hphase, helapsed, fun hg => closedGate_of (hgate hg) _ _ _, hready, hatomic⟩

/-- The phase advance stays below N_PHASE (41_sampler.md R95). -/
theorem incMod_lt {n : Nat} {v : PhaseWord} (h : v.toNat < n) (hn : n ≤ 16) : (incMod n v).toNat < n := by
  rw [incMod_toNat h hn]
  exact Nat.mod_lt _ (by omega)

/-- A Sampler operation keeps the invariant: phase and `elapsed` stay in range, and the flag is never cleared. -/
theorem goodState_sampler {i : Instr} {s u : State} (hI : GoodState s) (hg : s.gate = .run) (hi : isSampler i = true)
    (hu : exec i s = .next u) : GoodState u := by
  obtain ⟨hp, hcur, hphase, helapsed, -, hready, hatomic⟩ := hI
  obtain ⟨-, hn, -⟩ := (paramsWf_iff s.params).mp hp
  obtain ⟨sa, sr, bc, rfl, hend, hother, -⟩ := sampler_next hi hu
  refine ⟨hp, hcur, incMod_lt hphase hn, satInc_lt helapsed, fun h => absurd hg h, fun hpc => ?_, hatomic⟩
  by_cases he : i = .tickEnd
  · exact (hend he).2
  · exact (hother he).2.trans (hready hpc)

/-- A Control Loop operation keeps the invariant: the cursor moves to TERM_IDX or along an edge, CL.READ and CL.CLEAR follow a
CL.TEST that saw the flag, and CL.TRANS and CL.RESET follow a CL.CMP of the default machine. -/
theorem goodState_loop {i : Instr} {s u : State} (hI : GoodState s) (hg : s.gate = .run)
    (hd : decodeC (clPcWord s.clPc) = .ok i) (hu : exec i s = .next u) : GoodState u := by
  obtain ⟨hp, hcur, hphase, helapsed, -, hready, hatomic⟩ := hI
  obtain ⟨-, -, -, -, -, hterm, -⟩ := (paramsWf_iff s.params).mp hp
  have hopen {v : State} (h : v.gate = .run) : v.gate ≠ .run → ClosedGateAtReset v := fun hn => absurd h hn
  obtain ⟨-, -, rfl⟩ | ⟨hpc, -, rfl⟩ | ⟨-, -, rfl⟩ | ⟨-, -, r, -, rfl⟩ |
    ⟨-, -, r, -, ⟨-, rfl⟩ | ⟨-, ha, rfl⟩ | ⟨-, -, n, hn, rfl⟩⟩ | ⟨hpc, -, r, n, -, hn, rfl⟩ | ⟨-, -, rfl⟩ := loop_cases hd hu
  · cases hflag : s.sampleReady <;>
      exact ⟨hp, hcur, hphase, helapsed, hopen hg, by simp [hflag], by simp⟩
  · have hflag : s.sampleReady = true := hready (.inl hpc)
    split
    · exact ⟨hp, hterm, hphase, helapsed, hopen hg, fun _ => hflag, by simp⟩
    · exact ⟨hp, hcur, hphase, helapsed, hopen hg, fun _ => hflag, by simp⟩
  · exact ⟨hp, hcur, hphase, helapsed, hopen hg, by simp, by simp⟩
  · exact ⟨hp, hcur, hphase, helapsed, hopen hg, by simp, by simp⟩
  · exact ⟨hp, hcur, hphase, helapsed, hopen hg, by simp, by simp⟩
  · exact ⟨hp, hcur, hphase, helapsed, hopen hg, by simp, by simp [ha]⟩
  · exact ⟨hp, tableRead_lt hn, hphase, Nat.two_pow_pos _, hopen hg, by simp, by simp⟩
  · exact ⟨hp, tableRead_lt hn, hphase, helapsed, hopen hg, by simp, fun ha => absurd hpc (hatomic ha).1⟩
  · exact ⟨hp, hcur, hphase, Nat.two_pow_pos _, hopen hg, by simp, by simp⟩

/-- A closed gate that moves leaves every other register at its reset value. -/
theorem goodState_gate {s : State} (hI : GoodState s) (hg : s.gate ≠ .run) (g : Gate) : GoodState { s with gate := g } := by
  obtain ⟨hp, -, -, -, hgate, -⟩ := hI
  exact goodState_of_closed hp (closedGate_of (hgate hg) g s.env s.drawIndex)

/-- Settles O36, by what a step can be. -/
theorem stepKeepsInvariant : Obligations.StepKeepsInvariant := by
  intro s t hI h
  obtain ⟨hp, ⟨-, -, -, -, rfl⟩ | ⟨-, -, rfl⟩ | ⟨i, u, -, hi, -, -, hg, -, hu, rfl⟩ | ⟨i, u, -, -, -, -, hg, hd, hu, rfl⟩ |
    ⟨-, -, -, hg, rfl⟩ | ⟨-, -, -, hg, rfl⟩⟩ := step_cases h
  all_goals apply goodState_usePins
  · exact hI
  · exact goodState_of_closed hp rfl
  · exact goodState_sampler hI hg hi hu
  · exact goodState_loop hI hg hd hu
  · split
    · exact goodState_gate hI (by simp [hg]) _
    · exact hI
  · split
    · exact hI
    · exact goodState_gate hI (by simp [hg]) _

/-- In a good state a step is possible whatever the pins are. -/
theorem step_ok {s : State} (hI : GoodState s) : ∃ t, step s = .next t := by
  have ⟨hp, _, hphase, _⟩ := hI
  have hrun {i : Instr} (h : step s = afterStep (exec i s)) : ∃ t, step s = .next t := by
    obtain ⟨u, hu⟩ := exec_ok hI i
    exact ⟨usePins u, by rw [h, hu]; rfl⟩
  obtain ⟨hreset, hdropped, htick, hpress, hrelease, hloop⟩ := stepDispatchOrder s hp hphase
  cases hr : (pinsNow s).rst with
  | true => exact hrun (hreset hr)
  | false =>
    cases ht : (pinsNow s).tick with
    | true =>
      by_cases hg : s.gate = .run
      · obtain ⟨i, -, hi⟩ := htick hr ht hg
        exact hrun hi
      · exact ⟨_, hdropped hr ht hg⟩
    | false =>
      cases hg : s.gate with
      | waitPress => exact hrun (hpress hr ht hg)
      | waitRelease => exact hrun (hrelease hr ht hg)
      | run =>
        obtain ⟨i, -, hi⟩ := hloop hr ht hg
        exact hrun hi

/-- Settles O37, by induction on the number of steps: a good state steps, and to a good state. -/
theorem runNeverStops : Obligations.RunNeverStops := by
  intro n
  induction n with
  | zero => exact fun s hI => ⟨s, rfl, hI⟩
  | succ n ih =>
    intro s hI
    obtain ⟨u, hu⟩ := step_ok hI
    rw [core_run_succ, hu]
    exact ih u (stepKeepsInvariant s u hI hu)

end Sys2Proof.Machine
end


section
/-! SUPPORT. Who writes which register: each register's writers among the operations, and then among the steps (10_state.md
sections 2, 4 and 5, 41_sampler.md section 2, 42_control_loop.md section 6). -/

namespace Sys2Proof.Machine

/-- The four kinds of operation (30_encoding.md section 5). -/
theorem instr_kind (i : Instr) :
    isSampler i = true ∨ isControlLoop i = true ∨ (i = .gatePress ∨ i = .gateRelease) ∨ i = .reset := by
  cases i <;> simp [isSampler, isTickIdle, isControlLoop]

/-- What an operation may do to the cursor: RESET, the exception and the table edge write it, nothing else does (10_state.md
section 2). -/
theorem exec_cur {i : Instr} {s u : State} (h : exec i s = .next u) :
    u.cur = s.cur ∨ (i = .reset ∧ u.cur = s.params.startIdx) ∨
    (i = .clRead ∧ s.sample = 0xFF ∧ u.cur = s.params.termIdx) ∨
    (∃ r, tableRead s.params s.cur = some r ∧ u.cur = recordNext r s.input ∧
      (i = .clTrans ∨ (i = .clCmp ∧ s.params.atomicDwellReset = true ∧ r.dwell ≤ s.elapsed))) := by
  obtain hi | hi | hi | rfl := instr_kind i
  · obtain ⟨-, -, hcur, -⟩ := samplerFrame i s u hi h
    exact .inl hcur
  · obtain ⟨-, -, -, -, -, -, -, -, -, -, -, -, hread, hcur, -⟩ := controlLoopFrame i s u hi h
    by_cases hr : i = .clRead
    · subst hr
      by_cases hs : s.sample = 0xFF
      · cases (exec_clRead_sentinel ((isSentinel_iff _).mpr hs)).symm.trans h
        exact .inr (.inr (.inl ⟨rfl, hs, rfl⟩))
      · exact .inl (hread rfl hs)
    by_cases ht : i = .clTrans
    · subst ht
      obtain ⟨r, n, hr, -, rfl⟩ := exec_clTrans_next h
      exact .inr (.inr (.inr ⟨r, hr, rfl, .inl rfl⟩))
    by_cases hc : i = .clCmp ∧ cmpTakesEdge s = true
    · obtain ⟨rfl, hedge⟩ := hc
      obtain ⟨hno, -⟩ | ⟨-, r, n, hr, ha, hd, -, rfl⟩ := exec_clCmp_next h
      · cases hno.symm.trans hedge
      · exact .inr (.inr (.inr ⟨r, hr, rfl, .inr ⟨rfl, ha, hd⟩⟩))
    · exact .inl (hcur hr ht hc)
  · obtain ⟨hu, -⟩ := startGateFrame i s u hi h
    exact .inl (by rw [hu])
  · cases h
    exact .inr (.inl ⟨rfl, rfl⟩)

/-- Settles O38, by the writers of the cursor among the operations. -/
theorem cursorChangesOnlyByEdgeOverrideOrReset : Obligations.CursorChangesOnlyByEdgeOverrideOrReset := by
  intro s t h hne
  obtain ⟨-, -, rfl⟩ | ⟨i, u, hi, hu, rfl⟩ := step_next_instr h
  · exact absurd rfl hne
  · simp only [hi, Option.some.injEq]
    obtain hsame | hwrite := exec_cur hu
    · exact absurd hsame hne
    · exact hwrite

/-- The drive strobe, the motor outputs and `drive_count` go together: an operation but RESET that issues levels issues those
of the State that the cursor is then at (10_state.md section 5). -/
theorem exec_motors {i : Instr} {s u : State} (h : exec i s = .next u) (hne : i ≠ .reset) :
    ((pulses i s).driveStrobe = true → u.driveCount = s.driveCount + 1 ∧
      ∃ n, tableRead u.params u.cur = some n ∧ u.motorL = n.left ∧ u.motorR = n.right) ∧
    ((pulses i s).driveStrobe = false → u.driveCount = s.driveCount ∧ u.motorL = s.motorL ∧ u.motorR = s.motorR) := by
  rw [← Bool.not_eq_true, pulses_driveStrobe_iff]
  refine ⟨fun hstrobe => ?_, fun hno => ?_⟩
  · obtain rfl | ⟨rfl, hedge⟩ := hstrobe
    · obtain ⟨r, n, -, hn, rfl⟩ := exec_clTrans_next h
      exact ⟨rfl, n, hn, rfl, rfl⟩
    · obtain ⟨hne, -⟩ | ⟨-, r, n, -, -, -, hn, rfl⟩ := exec_clCmp_next h
      · cases hne.symm.trans hedge
      · exact ⟨rfl, n, hn, rfl, rfl⟩
  · obtain ⟨htrans, hcmp⟩ := not_or.mp hno
    obtain hi | hi | hi | rfl := instr_kind i
    · obtain ⟨-, -, -, -, hl, hr, -, -, hcount, -⟩ := samplerFrame i s u hi h
      exact ⟨hcount, hl, hr⟩
    · obtain ⟨-, -, -, -, -, -, -, -, -, -, -, -, -, -, hmotors, -⟩ := controlLoopFrame i s u hi h
      obtain ⟨hl, hr, hcount⟩ := hmotors htrans hcmp
      exact ⟨hcount, hl, hr⟩
    · obtain ⟨hu, -⟩ := startGateFrame i s u hi h
      rw [hu]
      exact ⟨rfl, rfl, rfl⟩
    · exact absurd rfl hne

/-- Only TICK.BEGIN requests an acquisition (41_sampler.md R90). -/
theorem pulses_sensBegin_iff (i : Instr) (s : State) : (pulses i s).sensBegin = true ↔ i = .tickBegin := by
  cases i <;> simp [pulses, noPulse]

/-- Every operation but TICK.BEGIN and RESET leaves `begin_count` (10_state.md section 5). -/
theorem exec_beginCount {i : Instr} {s u : State} (h : exec i s = .next u) (hb : i ≠ .tickBegin) (hne : i ≠ .reset) :
    u.beginCount = s.beginCount := by
  obtain hi | hi | hi | rfl := instr_kind i
  · obtain ⟨-, -, -, -, -, -, -, -, -, -, -, -, -, -, hbegin⟩ := samplerFrame i s u hi h
    exact hbegin hb
  · obtain ⟨-, -, -, hbegin, -⟩ := controlLoopFrame i s u hi h
    exact hbegin
  · obtain ⟨hu, -⟩ := startGateFrame i s u hi h
    rw [hu]
  · exact absurd rfl hne

/-- Settles O46, by the writers of the motor outputs and of the two counts among the operations. -/
theorem motorsFollowDriveStrobe : Obligations.MotorsFollowDriveStrobe := by
  intro s t i h hi hne
  obtain ⟨-, hno, -⟩ | ⟨j, u, hj, hu, rfl⟩ := step_next_instr h
  · cases hno.symm.trans hi
  obtain rfl : j = i := Option.some.inj (hj.symm.trans hi)
  obtain ⟨hstrobe, hquiet⟩ := exec_motors hu hne
  refine ⟨hstrobe, hquiet, fun hb => ?_, fun hb => ?_⟩
  · obtain rfl := (pulses_sensBegin_iff j s).mp hb
    cases hu
    rfl
  · rw [← Bool.not_eq_true, pulses_sensBegin_iff] at hb
    exact (exec_beginCount hu hb hne :)

/-- Settles O47: the Sampler and the Control Loop leave `gate`, a polling step moves it on only when it sees its level. -/
theorem gateOpensInOrder : Obligations.GateOpensInOrder := by
  intro s t h hne
  obtain ⟨-, ⟨-, -, -, -, rfl⟩ | ⟨hi, -, rfl⟩ | ⟨i, u, -, hs, -, -, -, -, hu, rfl⟩ | ⟨i, u, -, -, -, -, -, hd, hu, rfl⟩ |
    ⟨hi, -, -, hg, rfl⟩ | ⟨hi, -, -, hg, rfl⟩⟩ := step_cases h
  · exact absurd rfl hne
  · exact .inr (.inr ⟨rfl, hi⟩)
  · exact absurd (exec_sampler_gate hs hu) hne
  · exact absurd (exec_loop_gate hd hu) hne
  · cases hp : startIn s with
    | true => exact .inl ⟨hg, by simp, hi, hp⟩
    | false => simp [hp] at hne
  · cases hp : startIn s with
    | true => simp [hp] at hne
    | false => exact .inr (.inl ⟨hg, by simp, hi, hp⟩)

/-- Only CL.RENDER and RESET write the indicators (10_state.md section 1). -/
theorem exec_indicators {i : Instr} {s u : State} (h : exec i s = .next u) (hrender : i ≠ .clRender) (hne : i ≠ .reset) :
    u.ind0 = s.ind0 ∧ u.ind1 = s.ind1 := by
  obtain hi | hi | hi | rfl := instr_kind i
  · obtain ⟨-, -, -, -, -, -, h0, h1, -⟩ := samplerFrame i s u hi h
    exact ⟨h0, h1⟩
  · obtain ⟨-, -, -, -, -, -, -, -, -, hind, -⟩ := controlLoopFrame i s u hi h
    exact hind hrender
  · obtain ⟨hu, -⟩ := startGateFrame i s u hi h
    rw [hu]
    exact ⟨rfl, rfl⟩
  · exact absurd rfl hne

/-- CL.RENDER shows the record of the cursor, which it leaves (42_control_loop.md R104). -/
theorem exec_clRender_shows {s u : State} {r : StateRecord} (h : exec .clRender s = .next u)
    (hr : tableRead u.params u.cur = some r) : u.ind0 = r.ind0 ∧ u.ind1 = r.ind1 := by
  obtain ⟨r', hr', rfl⟩ := exec_clRender_next h
  obtain rfl : r' = r := Option.some.inj (hr'.symm.trans hr)
  exact ⟨rfl, rfl⟩

/-- Settles O48: CL.RENDER shows the cursor's record, and every other operation but RESET leaves the indicators. -/
theorem renderedIndicatorsStay : Obligations.RenderedIndicatorsStay := by
  intro s t r h hr
  obtain ⟨-, hno, rfl⟩ | ⟨i, u, hi, hu, rfl⟩ := step_next_instr h
  · exact ⟨fun hi => (nomatch hno.symm.trans hi), fun _ _ h0 h1 => ⟨h0, h1⟩⟩
  rw [hi]
  refine ⟨fun hrender => ?_, fun hne _ h0 h1 => ?_⟩
  · cases hrender
    exact (exec_clRender_shows hu hr :)
  · by_cases hrender : i = .clRender
    · subst hrender
      exact (exec_clRender_shows hu hr :)
    · obtain ⟨h0', h1'⟩ := exec_indicators hu hrender (fun hreset => hne (congrArg some hreset))
      exact ⟨h0'.trans h0, h1'.trans h1⟩

/-- Every operation but TICK.END, CL.CLEAR and RESET leaves `sampleReady` (10_state.md section 4). -/
theorem exec_sampleReady {i : Instr} {s u : State} (h : exec i s = .next u) (hend : i ≠ .tickEnd) (hclear : i ≠ .clClear)
    (hne : i ≠ .reset) : u.sampleReady = s.sampleReady := by
  obtain hi | hi | hi | rfl := instr_kind i
  · obtain ⟨-, -, -, -, -, -, -, -, -, -, -, -, -, hsample, -⟩ := samplerFrame i s u hi h
    exact (hsample hend).2
  · obtain ⟨-, -, -, -, -, -, -, -, hready, -⟩ := controlLoopFrame i s u hi h
    exact hready hclear
  · obtain ⟨hu, -⟩ := startGateFrame i s u hi h
    rw [hu]
  · exact absurd rfl hne

/-- Settles O45: TICK.END sets the flag, CL.CLEAR and RESET clear it, and no other operation writes it. -/
theorem sampleReadyWriters : Obligations.SampleReadyWriters := by
  intro s t h
  obtain ⟨-, hno, rfl⟩ | ⟨i, u, hi, hu, rfl⟩ := step_next_instr h
  · exact ⟨fun h0 h1 => (nomatch h0.symm.trans h1), fun h1 h0 => (nomatch h1.symm.trans h0), fun hi => (nomatch hno.symm.trans hi)⟩
  rw [hi, usePins_sampleReady, usePins_sample]
  by_cases hend : i = .tickEnd
  · subst hend
    cases hu
    exact ⟨fun _ _ => rfl, nofun, fun _ => ⟨rfl, rfl⟩⟩
  by_cases hclear : i = .clClear
  · subst hclear
    cases hu
    exact ⟨nofun, fun _ _ => .inl rfl, nofun⟩
  by_cases hreset : i = .reset
  · subst hreset
    cases hu
    exact ⟨nofun, fun _ _ => .inr rfl, nofun⟩
  · rw [exec_sampleReady hu hend hclear hreset]
    exact ⟨fun h0 h1 => (nomatch h0.symm.trans h1), fun h1 h0 => (nomatch h1.symm.trans h0),
      fun hi => absurd (Option.some.inj hi) hend⟩

/-- Only phase 0 advances to 1 (41_sampler.md R95). -/
theorem eq_zero_of_incMod_eq_one {n : Nat} {v : PhaseWord} (h : incMod n v = 1) : v = 0 := by
  unfold incMod at h
  split at h
  · exact absurd h (by decide)
  · simpa using h

/-- A phase that selects an operation is below N_PHASE (30_encoding.md R69). -/
theorem lt_of_decodeS_ok {n : Nat} {p : PhaseWord} {i : Instr} (h : decodeS n p = .ok i) : p.toNat < n := by
  by_contra hp
  cases (decodeS_reserved (Nat.le_of_not_lt hp)).symm.trans h

/-- Among the phases that select an operation only 1 selects TICK.END (30_encoding.md R66). -/
theorem decodeS_tickEnd_iff {n : Nat} {p : PhaseWord} {i : Instr} (h : decodeS n p = .ok i) : i = .tickEnd ↔ p = 1 := by
  refine ⟨?_, ?_⟩
  · rintro rfl
    exact (SelectorWord.S.inj (encodeOfDecode n (.S p) _ h).1).symm
  · rintro rfl
    exact (Except.ok.inj ((decodeS_one (lt_of_decodeS_ok h)).symm.trans h)).symm

/-- Settles O44: no operation but the Sampler's and RESET writes `phase`, and the Sampler's operation is the one whose word
`phase` is. -/
theorem sensorSpacing : Obligations.SensorSpacing := by
  intro s t h
  have hsame (hphase : t.phase = s.phase) (hi : nextInstr s ≠ some .tickEnd) :
      (nextInstr s = some .tickEnd → s.phase = 1) ∧
      (t.phase = 1 → s.phase ≠ 1 → nextInstr s = some .tickBegin) ∧
      (s.phase = 1 → t.phase ≠ 1 → nextInstr s = some .tickEnd ∨ nextInstr s = some .reset) :=
    ⟨fun he => absurd he hi, fun h1 hne => absurd (hphase.symm.trans h1) hne, fun h1 hne => absurd (hphase.trans h1) hne⟩
  obtain ⟨-, ⟨hi, -, -, -, rfl⟩ | ⟨hi, -, rfl⟩ | ⟨i, u, hi, hs, -, -, -, hd, hu, rfl⟩ | ⟨i, u, hi, hl, -, -, -, -, hu, rfl⟩ |
    ⟨hi, -, -, -, rfl⟩ | ⟨hi, -, -, -, rfl⟩⟩ := step_cases h
  · exact hsame rfl (by simp [hi])
  · exact ⟨fun he => (nomatch hi.symm.trans he), fun h1 => absurd h1 (by simp), fun _ _ => .inr hi⟩
  · rw [hi]
    obtain ⟨_, _, _, rfl, -⟩ := sampler_next hs hu
    refine ⟨fun he => (decodeS_tickEnd_iff hd).mp (Option.some.inj he), fun h1 _ => ?_, fun h1 _ => ?_⟩
    · rw [eq_zero_of_incMod_eq_one h1] at hd
      exact congrArg some (Except.ok.inj (hd.symm.trans (decodeS_zero (lt_of_decodeS_ok hd))))
    · exact .inl (congrArg some ((decodeS_tickEnd_iff hd).mpr h1))
  · obtain ⟨-, hphase, -⟩ := controlLoopFrame i s u hl hu
    exact hsame hphase (by rw [hi]; rintro ⟨⟩; cases hl)
  · exact hsame (by split <;> rfl) (by simp [hi])
  · exact hsame (by split <;> rfl) (by simp [hi])

end Sys2Proof.Machine
end


section
/-! SUPPORT. Runs without RESET: the phase they count, the terminal State they stay in, and the motors they stop
(41_sampler.md section 1, 42_control_loop.md R112, 70_reset_and_hazards.md section 3). -/

namespace Sys2Proof.Machine

/-- A run takes its first step and goes on from there. -/
theorem runPins_cons_next {p : Pins} {ps : List Pins} {s t : State} (h : runPins (p :: ps) s = .next t) :
    ∃ u, stepPins p s = .next u ∧ runPins ps u = .next t := by
  rw [runPins_cons] at h
  cases hs : stepPins p s with
  | next u => rw [hs] at h; exact ⟨u, rfl, h⟩
  | fault f => rw [hs] at h; cases h
  | refused r => rw [hs] at h; cases h

/-- A step under a given pin sample keeps the invariant. -/
theorem stepPins_good {p : Pins} {s t : State} (hI : GoodState s) (h : stepPins p s = .next t) : GoodState t :=
  stepKeepsInvariant _ t (goodState_env hI (p :: s.env)) h

/-- A step without RESET, once the gate is open: the gate stays open, a tick advances `phase` and a Control step leaves it
(41_sampler.md section 1). -/
theorem stepPins_phase {p : Pins} {s t : State} (hI : GoodState s) (hg : s.gate = .run) (hr : p.rst = false)
    (h : stepPins p s = .next t) :
    t.gate = .run ∧ t.phase.toNat = (s.phase.toNat + p.tick.toNat) % s.params.nPhase := by
  obtain ⟨hp, -, hphase, -⟩ := hI
  obtain ⟨-, h16, -⟩ := (paramsWf_iff s.params).mp hp
  obtain ⟨-, ⟨-, -, -, hclosed, -⟩ | ⟨-, hrst, -⟩ | ⟨i, u, -, hs, -, ht, -, -, hu, rfl⟩ | ⟨i, u, -, hl, -, ht, -, -, hu, rfl⟩ |
    ⟨-, -, -, hclosed, -⟩ | ⟨-, -, -, hclosed, -⟩⟩ := step_cases h
  · exact absurd hg hclosed
  · cases hr.symm.trans hrst
  · obtain ⟨_, _, _, rfl, -⟩ := sampler_next hs hu
    have htick : p.tick = true := ht
    rw [htick]
    exact ⟨hg, incMod_toNat hphase h16⟩
  · obtain ⟨hgate, hsame, -⟩ := controlLoopFrame i _ u hl hu
    have htick : p.tick = false := ht
    rw [htick, Bool.toNat_false, Nat.add_zero, Nat.mod_eq_of_lt hphase]
    exact ⟨hgate.trans hg, congrArg BitVec.toNat hsame⟩
  · cases hg.symm.trans hclosed
  · cases hg.symm.trans hclosed

/-- Settles O43, by induction on the run: each step adds its tick to the phase. -/
theorem phaseCountsTicks : Obligations.PhaseCountsTicks := by
  intro s t ins
  induction ins generalizing s with
  | nil =>
    intro hI hg _ h
    cases h
    obtain ⟨-, -, hphase, -⟩ := hI
    exact ⟨hg, (Nat.mod_eq_of_lt hphase).symm⟩
  | cons p ps ih =>
    intro hI hg hrst h
    obtain ⟨u, hu, h⟩ := runPins_cons_next h
    obtain ⟨hr, hrst⟩ := List.forall_mem_cons.mp hrst
    obtain ⟨hgate, hphase⟩ := stepPins_phase hI hg hr hu
    obtain ⟨htgate, htphase⟩ := ih u (stepPins_good hI hu) hgate hrst h
    refine ⟨htgate, ?_⟩
    rw [htphase, hphase, (stepPins_env hu).2, Nat.mod_add_mod, List.countP_cons, Nat.add_assoc]
    cases p.tick <;> simp [Nat.add_comm]

/-- The levels of the terminal State are (0, 0) (40_transition_engine.md R83). -/
theorem motorsStopped_of_terminal {s : State} {n : StateRecord} (hp : paramsWf s.params = true) (ht : AtTerminal s)
    (hn : tableRead s.params s.cur = some n) (hl : s.motorL = n.left) (hr : s.motorR = n.right) : MotorsStopped s := by
  obtain ⟨-, hleft, hright, -⟩ := terminal_record hp (ht ▸ hn)
  exact ⟨hl.trans hleft, hr.trans hright⟩

/-- Every edge of the terminal State leads back to it (40_transition_engine.md R82). -/
theorem recordNext_of_terminal {s : State} {r : StateRecord} (hp : paramsWf s.params = true) (ht : AtTerminal s)
    (hr : tableRead s.params s.cur = some r) (c : InputCode) : recordNext r c = s.params.termIdx :=
  (terminal_record hp (ht ▸ hr)).1 c

/-- Settles O40: the levels that CL.TRANS issues are those of the State it enters. -/
theorem transitionToTerminalStopsMotors : Obligations.TransitionToTerminalStopsMotors := by
  intro s hI
  obtain ⟨hp, hcur, -⟩ := hI
  obtain ⟨r, hr⟩ := tableRead_of_lt hcur
  obtain ⟨n, hn⟩ := tableRead_next hp hr s.input
  refine ⟨_, exec_clTrans hr hn, fun ht => ?_, fun ht => ?_⟩
  · exact motorsStopped_of_terminal hp ht hn rfl rfl
  · exact recordNext_of_terminal hp ht hr s.input

/-- Only `rst` selects RESET (30_encoding.md R60). -/
theorem rst_of_nextInstr_reset {s : State} (h : nextInstr s = some .reset) : (pinsNow s).rst = true := by
  obtain ⟨-, hr⟩ | ⟨-, -, -, hd⟩ | ⟨-, -, -, hd⟩ | ⟨-, -, hd⟩ := nextInstr_some h
  · exact hr
  · cases (encodeOfDecode _ (.S _) _ hd).1
  · cases (encodeOfDecode 0 (.C _) _ hd).1
  · cases (encodeOfDecode 0 (.G _) _ hd).1

/-- A step without RESET from the terminal State stays there: the exception leads to it and so do all its edges. -/
theorem step_keeps_atTerminal {s t : State} (hp : paramsWf s.params = true) (hrst : (pinsNow s).rst = false)
    (ht : AtTerminal s) (h : step s = .next t) : AtTerminal t := by
  have hparams : t.params = s.params := (step_next_env h).2
  rw [AtTerminal, hparams]
  by_cases hsame : t.cur = s.cur
  · exact hsame.trans ht
  obtain ⟨hi, -⟩ | ⟨-, -, hcur⟩ | ⟨r, hr, hcur, -⟩ := cursorChangesOnlyByEdgeOverrideOrReset s t h hsame
  · cases hrst.symm.trans (rst_of_nextInstr_reset hi)
  · exact hcur
  · exact hcur.trans (recordNext_of_terminal hp ht hr s.input)

/-- The same under a given pin sample. -/
theorem stepPins_keeps_atTerminal {p : Pins} {s t : State} (hI : GoodState s) (hp : p.rst = false) (ht : AtTerminal s)
    (h : stepPins p s = .next t) : AtTerminal t := by
  obtain ⟨hwf, -⟩ := hI
  exact step_keeps_atTerminal (s := { s with env := p :: s.env }) hwf hp ht h

/-- A step without RESET that ends in the terminal State leaves motors at rest at rest: the levels it may issue are those of
that State. -/
theorem step_keeps_motorsStopped {s t : State} (hp : paramsWf s.params = true) (hrst : (pinsNow s).rst = false)
    (hm : MotorsStopped s) (h : step s = .next t) (ht : AtTerminal t) : MotorsStopped t := by
  obtain ⟨-, -, rfl⟩ | ⟨i, u, hi, hu, rfl⟩ := step_next_instr h
  · exact hm
  have hne : i ≠ .reset := by
    rintro rfl
    cases hrst.symm.trans (rst_of_nextInstr_reset hi)
  obtain ⟨hstrobe, hquiet⟩ := exec_motors hu hne
  cases hpulse : (pulses i s).driveStrobe with
  | true =>
    obtain ⟨-, n, hn, hl, hr⟩ := hstrobe hpulse
    obtain ⟨hparams, -⟩ := exec_next_frame hu
    exact (motorsStopped_of_terminal (hparams ▸ hp) ht hn hl hr :)
  | false =>
    obtain ⟨-, hl, hr⟩ := hquiet hpulse
    exact ⟨hl.trans hm.1, hr.trans hm.2⟩

/-- Settles O39: every step of the run keeps the cursor at TERM_IDX, and then the motors at rest. -/
theorem terminalStateAbsorbs : Obligations.TerminalStateAbsorbs := by
  intro s t ins hI ht hrst h
  have hkeep (p : Pins) (u v : State) (hp : p.rst = false)
      (hu : GoodState u ∧ AtTerminal u ∧ (MotorsStopped s → MotorsStopped u)) (hstep : stepPins p u = .next v) :
      GoodState v ∧ AtTerminal v ∧ (MotorsStopped s → MotorsStopped v) := by
    obtain ⟨hIu, htu, hmu⟩ := hu
    have ⟨hwf, _⟩ := hIu
    have htv : AtTerminal v := stepPins_keeps_atTerminal hIu hp htu hstep
    exact ⟨stepPins_good hIu hstep, htv,
      fun hm => step_keeps_motorsStopped (s := { u with env := p :: u.env }) hwf hp (hmu hm) hstep htv⟩
  exact (runPins_keeps hkeep hrst ⟨hI, ht, id⟩ h).2

/-- How many Control steps remain until the Control Loop has issued the levels of the cursor's State, at most, once its dwell
is over (42_control_loop.md R100); P_RESET comes after them. -/
def stepsToDrive : ClPc → Nat
  | .reset => 7
  | .test => 6
  | .read => 5
  | .clear => 4
  | .render => 3
  | .cmp => 2
  | .trans => 1

/-- There is a Control step to do wherever `cl_pc` stands. -/
theorem stepsToDrive_pos (pc : ClPc) : 0 < stepsToDrive pc := by
  cases pc <;> decide

/-- Only P_RESET is further away than a whole iteration. -/
theorem stepsToDrive_le_six {pc : ClPc} (h : pc ≠ .reset) : stepsToDrive pc ≤ 6 := by
  cases pc
  case reset => exact absurd rfl h
  all_goals decide

/-- At the terminal State with the dwell over, the Control Loop on its way to the levels: `k` Control steps suffice. -/
def DrivesWithin (k : Nat) (s : State) : Prop :=
  s.gate = .run ∧ AtTerminal s ∧ s.clPc ≠ .reset ∧ stepsToDrive s.clPc ≤ k ∧
    ∀ r, tableRead s.params s.cur = some r → r.dwell ≤ s.elapsed

/-- A tick leaves `cl_pc` and only lengthens the dwell (41_sampler.md R94). -/
theorem drivesWithin_tick {p : Pins} {k : Nat} {s u : State} (hI : GoodState s) (hs : DrivesWithin k s) (ht : TickPins p)
    (h : stepPins p s = .next u) : DrivesWithin k u := by
  obtain ⟨hg, hterm, hpc, hk, hd⟩ := hs
  obtain ⟨sa, sr, bc, hu, -⟩ := stepPins_tick hI hg ht
  cases hu.symm.trans h
  exact ⟨hg, hterm, hpc, hk, fun r hr => Nat.le_trans (hd r hr) (le_satInc _ _)⟩

/-- A Control step that leaves the dwell and moves `cl_pc` towards the levels. -/
theorem drivesWithin_of_nearer {k : Nat} {s u : State} (hs : DrivesWithin (k + 1) s) (hparams : u.params = s.params)
    (hgate : u.gate = s.gate) (hterm : AtTerminal u) (helapsed : u.elapsed = s.elapsed)
    (hpc : stepsToDrive u.clPc < stepsToDrive s.clPc) : DrivesWithin k u := by
  obtain ⟨hg, ht, hreset, hk, hd⟩ := hs
  have h6 := stepsToDrive_le_six hreset
  refine ⟨hgate.trans hg, hterm, fun h => ?_, by omega, ?_⟩
  · rw [h] at hpc
    exact absurd hpc (Nat.not_lt.mpr (Nat.le_succ_of_le h6))
  · rw [hterm, hparams, helapsed, ← ht]
    exact hd

/-- A Control step brings the levels nearer, or issues those of the terminal State. -/
theorem drivesWithin_control {p : Pins} {k : Nat} {s u : State} (hI : GoodState s) (hs : DrivesWithin (k + 1) s)
    (hc : ControlPins p) (h : stepPins p s = .next u) : MotorsStopped u ∨ DrivesWithin k u := by
  have ⟨hg, ht, hreset, _, hd⟩ := hs
  have ⟨hp, hcur, _⟩ := hI
  obtain ⟨r, hr⟩ := tableRead_of_lt hcur
  obtain ⟨n, hn⟩ := tableRead_next hp hr s.input
  have htu : AtTerminal u := stepPins_keeps_atTerminal hI hc.1 ht h
  have hnearer := drivesWithin_of_nearer (u := u) hs (stepPins_env h).2
  cases hpc : s.clPc with
  | test =>
    cases (stepPins_clTest hp hg hc hpc).symm.trans h
    exact .inr (hnearer rfl htu rfl (by cases s.sampleReady <;> simp [hpc, stepsToDrive]))
  | read =>
    cases (stepPins_clRead hp hg hc hpc).symm.trans h
    exact .inr (hnearer rfl htu rfl (by simp [hpc, stepsToDrive]))
  | clear =>
    cases (stepPins_clClear hp hg hc hpc).symm.trans h
    exact .inr (hnearer rfl htu rfl (by simp [hpc, stepsToDrive]))
  | render =>
    cases (stepPins_clRender hp hg hc hpc hr).symm.trans h
    exact .inr (hnearer rfl htu rfl (by simp [hpc, stepsToDrive]))
  | cmp =>
    cases ha : s.params.atomicDwellReset with
    | false =>
      cases (stepPins_clCmp_expired hp hg hc hpc ha hr (hd r hr)).symm.trans h
      exact .inr (hnearer rfl htu rfl (by simp [hpc, stepsToDrive]))
    | true =>
      cases (stepPins_clCmp_atomic hp hg hc hpc ha hr hn (hd r hr)).symm.trans h
      exact .inl (motorsStopped_of_terminal hp htu hn rfl rfl)
  | trans =>
    cases (stepPins_clTrans hp hg hc hpc hr hn).symm.trans h
    exact .inl (motorsStopped_of_terminal hp htu hn rfl rfl)
  | reset => exact absurd hpc hreset

/-- Settles O41, by induction on the run: ticks keep the way to the levels, Control steps shorten it, and once the motors stand
still they stay so (O39). -/
theorem motorsStopAfterOverride : Obligations.MotorsStopAfterOverride := by
  intro s t r ins hI hg ht hpc hr hd hrst hcount h
  have hdrive : DrivesWithin (ins.countP (fun p => !p.tick)) s :=
    ⟨hg, ht, hpc, (stepsToDrive_le_six hpc).trans hcount, fun r' hr' => by cases hr.symm.trans hr'; exact hd⟩
  clear hg ht hpc hr hd hcount
  induction ins generalizing s with
  | nil =>
    obtain ⟨-, -, -, hk, -⟩ := hdrive
    exact absurd hk (Nat.not_le.mpr (stepsToDrive_pos _))
  | cons p ps ih =>
    obtain ⟨u, hu, h⟩ := runPins_cons_next h
    obtain ⟨hp, hps⟩ := List.forall_mem_cons.mp hrst
    have hIu : GoodState u := stepPins_good hI hu
    have ⟨_, hterm, _⟩ := hdrive
    rw [List.countP_cons] at hdrive
    cases htick : p.tick with
    | true =>
      simp only [htick, Bool.not_true, Bool.false_eq_true, if_false, Nat.add_zero] at hdrive
      exact ih u hIu hps h (drivesWithin_tick hI hdrive ⟨hp, htick⟩ hu)
    | false =>
      simp only [htick, Bool.not_false, if_true] at hdrive
      obtain hm | hdrive := drivesWithin_control hI hdrive ⟨hp, htick⟩ hu
      · exact (terminalStateAbsorbs u t ps hIu (stepPins_keeps_atTerminal hI hp hterm hu) hps h).2 hm
      · exact ih u hIu hps h hdrive

end Sys2Proof.Machine
end


section
/-! SUPPORT. The Sampler beside the Control Loop: what it reads, what it commutes with, and what ticks between the operations of
an iteration do (10_state.md section 6, 20_memory.md section 7, 42_control_loop.md R115, 70_reset_and_hazards.md R164, R165). -/

namespace Sys2Proof.Machine

/-- The Sampler's operations run in every state. -/
theorem exec_sampler_ok {i : Instr} (s : State) (hi : isSampler i = true) : ∃ t, exec i s = .next t := by
  cases i
  case tickBegin | tickEnd | tickIdle23 | tickIdle47 | tickIdle8up => exact ⟨_, rfl⟩
  all_goals cases hi

/-- Settles O50: the Sampler's operation counts the tick, and TICK.END publishes the byte of the pins. -/
theorem samplerIgnoresControlState : Obligations.SamplerIgnoresControlState := by
  intro i s u hi hphase helapsed hparams hpins
  obtain ⟨t, ht⟩ := exec_sampler_ok s hi
  obtain ⟨v, hv⟩ := exec_sampler_ok u hi
  obtain ⟨sa, sr, bc, rfl, hend, -⟩ := sampler_next hi ht
  obtain ⟨sa', sr', bc', rfl, hend', -⟩ := sampler_next hi hv
  refine ⟨_, _, ht, hv, ?_, ?_, fun he => ?_⟩
  · simp only [countTick_phase, hphase, hparams]
  · simp only [countTick_elapsed, helapsed, hparams]
  · obtain ⟨rfl, rfl⟩ := hend he
    obtain ⟨rfl, rfl⟩ := hend' he
    exact ⟨congrArg Pins.sensorData hpins, rfl⟩

/-- The Sampler's operations neither read nor write what CL.RENDER writes (10_state.md section 6). -/
theorem exec_sampler_render {i : Instr} {s a : State} (hi : isSampler i = true) (h : exec i s = .next a) (pc : ClPc)
    (r : StateRecord) : exec i (goTo pc (renderIndicators r s)) = .next (goTo pc (renderIndicators r a)) := by
  cases i
  case tickBegin | tickEnd | tickIdle23 | tickIdle47 | tickIdle8up => cases h; rfl
  all_goals cases hi

/-- The Sampler's operations neither read nor write what CL.TRANS writes (10_state.md section 6). -/
theorem exec_sampler_drive {i : Instr} {s a : State} (hi : isSampler i = true) (h : exec i s = .next a) (pc : ClPc)
    (c : StateIdx) (l r : DriveLevel) :
    exec i (goTo pc (setDrive l r { s with cur := c })) = .next (goTo pc (setDrive l r { a with cur := c })) := by
  cases i
  case tickBegin | tickEnd | tickIdle23 | tickIdle47 | tickIdle8up => cases h; rfl
  all_goals cases hi

/-- Settles O49: the Sampler leaves the cursor, the Input code and the table, so the Control Loop's operation reads the same
records in both orders. -/
theorem samplerCommutesWithLocalOperations : Obligations.SamplerCommutesWithLocalOperations := by
  intro i j s a b hi hj ha hb
  obtain ⟨-, -, hcur, hinput, -, -, -, -, -, hparams, -⟩ := samplerFrame i s a hi ha
  obtain rfl | rfl := hj
  · obtain ⟨r, hr, rfl⟩ := exec_clRender_next hb
    rw [← hparams, ← hcur] at hr
    exact ⟨_, exec_clRender hr, exec_sampler_render hi ha .cmp r⟩
  · obtain ⟨r, n, hr, hn, rfl⟩ := exec_clTrans_next hb
    rw [← hparams, ← hcur] at hr
    rw [← hparams, ← hinput] at hn
    have hedge : recordNext r a.input = recordNext r s.input := by rw [hinput]
    refine ⟨_, exec_clTrans hr hn, ?_⟩
    rw [hedge]
    exact exec_sampler_drive hi ha .reset (recordNext r s.input) n.left n.right

/-- A run whose first step goes on is that of the rest. -/
theorem runPins_cons_of {p : Pins} {s t : State} (h : stepPins p s = .next t) (ps : List Pins) :
    runPins (p :: ps) s = runPins ps t := by
  rw [runPins_cons, h]

/-- A run of one step is the step. -/
theorem runPins_singleton_of {p : Pins} {s t : State} (h : stepPins p s = .next t) : runPins [p] s = .next t :=
  runPins_cons_of h []

/-- Two runs after another are one. -/
theorem runPins_trans {ps qs : List Pins} {s t u : State} (h : runPins ps s = .next t) (h' : runPins qs t = .next u) :
    runPins (ps ++ qs) s = .next u := by
  rw [runPins_append, h]
  exact h'

/-- Every run from a good state that goes on ends in one. -/
theorem runPins_good {ins : List Pins} {s t : State} (hI : GoodState s) (h : runPins ins s = .next t) : GoodState t :=
  runPins_keeps (Q := fun _ => True) (fun _ _ _ _ => stepPins_good) (fun _ _ => trivial) hI h

/-- Ticks with the gate open leave every register of the Control context but `elapsed` (41_sampler.md section 2). -/
theorem runPins_ticks {ticks : List Pins} {s : State} (hI : GoodState s) (hg : s.gate = .run)
    (ht : ∀ p ∈ ticks, TickPins p) :
    ∃ el ph sa sr bc d, runPins ticks s = .next { s with
      elapsed := el, phase := ph, sample := sa, sampleReady := sr, beginCount := bc, drawIndex := d } := by
  induction ticks generalizing s with
  | nil => exact ⟨_, _, _, _, _, _, rfl⟩
  | cons p ps ih =>
    obtain ⟨hp, hps⟩ := List.forall_mem_cons.mp ht
    obtain ⟨sa, sr, bc, hstep, -⟩ := stepPins_tick hI hg hp
    rw [runPins_cons_of hstep]
    exact ih (stepPins_good hI hstep) hg hps

/-- Settles O51: CL.CMP decides, CL.TRANS and CL.RESET carry it out, and the ticks between them leave what they read. -/
theorem transitionRunsThroughTicks : Obligations.TransitionRunsThroughTicks := by
  intro s r n c d e ticks more hI hg hpc ha hr hn hd hc hdc he hticks hmore
  have ⟨hp, _⟩ := hI
  have hcmp := stepPins_clCmp_expired hp hg hc hpc ha hr hd
  have hI₁ := stepPins_good hI hcmp
  obtain ⟨el, ph, sa, sr, bc, di, hrun₁⟩ := runPins_ticks hI₁ hg hticks
  have hI₂ := runPins_good hI₁ hrun₁
  have htrans := stepPins_clTrans (p := d) hI₂.1 hg hdc rfl hr hn
  have hI₃ := stepPins_good hI₂ htrans
  obtain ⟨el', ph', sa', sr', bc', di', hrun₂⟩ := runPins_ticks hI₃ hg hmore
  have hreset := stepPins_clReset (p := e) (runPins_good hI₃ hrun₂).1 hg he rfl
  have hrun := runPins_trans (runPins_trans (runPins_trans (runPins_trans (runPins_singleton_of hcmp) hrun₁)
    (runPins_singleton_of htrans)) hrun₂) (runPins_singleton_of hreset)
  exact ⟨_, hrun, rfl, rfl, rfl, rfl, rfl, rfl, rfl⟩

/-- A tick at phase 1 publishes the byte of its pins (41_sampler.md R91). -/
theorem stepPins_tickEnd {s : State} {p : Pins} (hI : GoodState s) (hg : s.gate = .run) (hphase : s.phase = 1)
    (ht : TickPins p) : ∃ bc, stepPins p s = .next { s with
      elapsed := satInc s.params.wElapsed s.elapsed, phase := incMod s.params.nPhase s.phase
      sample := p.sensorData, sampleReady := true, beginCount := bc, drawIndex := s.drawIndex + 1 } := by
  obtain ⟨sa, sr, bc, hstep, hend, -⟩ := stepPins_tick hI hg ht
  obtain ⟨rfl, rfl⟩ := hend hphase
  exact ⟨bc, hstep⟩

/-- Settles O52: the flag that TICK.END sets again is the one that CL.CLEAR clears. -/
theorem sampleBetweenReadAndClearIsLost : Obligations.SampleBetweenReadAndClearIsLost := by
  intro s p c hI hg hpc hphase ht hc
  obtain ⟨bc, htick⟩ := stepPins_tickEnd hI hg hphase ht
  have hclear := stepPins_clClear (p := c) (stepPins_good hI htick).1 hg hc hpc
  exact ⟨_, (runPins_cons_of htick [c]).trans (runPins_singleton_of hclear), rfl, rfl, rfl, rfl, rfl⟩

/-- Settles O53: CL.READ looks at the byte that TICK.END has just published, the sentinel or not. -/
theorem sampleBetweenTestAndReadIsRead : Obligations.SampleBetweenTestAndReadIsRead := by
  intro s p c hI hg hpc hphase ht hc
  obtain ⟨bc, htick⟩ := stepPins_tickEnd hI hg hphase ht
  have hread := stepPins_clRead (p := c) (stepPins_good hI htick).1 hg hc hpc
  refine ⟨_, (runPins_cons_of htick [c]).trans (runPins_singleton_of hread), rfl, rfl, rfl, fun hs => ?_, fun hs => ?_⟩
  · have hsent := (isSentinel_iff p.sensorData).mpr hs
    simp [hsent]
  · have hlatch := mt (isSentinel_iff p.sensorData).mp hs
    simp [hlatch, inputOf_eq_ofNat]

/-- The operations of a run that starts with a tick: the one that `phase` selects, then those of the rest. -/
theorem opsOver_tick {s u : State} {p : Pins} {i : Instr} (ps : List Pins) (hg : s.gate = .run) (ht : TickPins p)
    (hd : decodeS s.params.nPhase s.phase = .ok i) (h : stepPins p s = .next u) :
    opsOver (p :: ps) s = i :: opsOver ps u := by
  have hi : nextInstr { s with env := p :: s.env } = some i := nextInstr_of_tick hg ht hd
  rw [opsOver_cons ps h, hi]
  rfl

/-- Between CL.READ and CL.CLEAR the premise PROMPT_CLEAR lets the Sampler run every operation but TICK.END
(70_reset_and_hazards.md R165). -/
theorem promptClear_reading {i : Instr} {untested : Bool} {is : List Instr} (hi : isSampler i = true)
    (h : promptClear true untested (i :: is) = true) : i ≠ .tickEnd ∧ promptClear true untested is = true := by
  cases i
  case tickEnd => cases h
  case tickBegin | tickIdle23 | tickIdle47 | tickIdle8up => exact ⟨nofun, h⟩
  all_goals cases hi

/-- Settles O55, by induction on the ticks: the premise excludes a TICK.END, and the other ticks leave the sample. -/
theorem promptClearKeepsTheReadSample : Obligations.PromptClearKeepsTheReadSample := by
  intro s t untested ins hI hg hpc hticks hprompt h
  induction ins generalizing s with
  | nil =>
    cases h
    obtain ⟨-, -, -, -, -, hready, -⟩ := hI
    exact ⟨rfl, hpc, hready (.inr hpc)⟩
  | cons p ps ih =>
    obtain ⟨u, hu, h⟩ := runPins_cons_next h
    obtain ⟨hp, hps⟩ := List.forall_mem_cons.mp hticks
    have ⟨_, _, hphase, _⟩ := hI
    obtain ⟨i, hd, hs, -⟩ := decodeS_ok hphase
    rw [opsOver_tick ps hg hp hd hu] at hprompt
    obtain ⟨hend, hprompt⟩ := promptClear_reading hs hprompt
    obtain ⟨sa, sr, bc, hstep, -, hother⟩ := stepPins_tick hI hg hp
    obtain ⟨rfl, rfl⟩ := hother (mt (decodeS_tickEnd_iff hd).mpr hend)
    have hrest := ih u (stepPins_good hI hu)
    cases hstep.symm.trans hu
    exact hrest hg hpc hps hprompt h

end Sys2Proof.Machine
end


section
/-! SUPPORT. Whole iterations without a tick: the operations up to CL.RENDER, the operations from there, and the block ITER
(42_control_loop.md R108, R110, 60_exceptions.md section 3). -/

namespace Sys2Proof.Machine

/-- Four pin samples, named. -/
theorem pins_of_length_four : ∀ {ins : List Pins}, ins.length = 4 → ∃ a b c d, ins = [a, b, c, d]
  | [a, b, c, d], _ => ⟨a, b, c, d, rfl⟩

/-- A run goes on when its first step does and the rest of it does. -/
theorem runPins_step {p : Pins} {ps : List Pins} {s t u : State} (h : stepPins p s = .next t) (h' : runPins ps t = .next u) :
    runPins (p :: ps) s = .next u :=
  (runPins_cons_of h ps).trans h'

/-- CL.READ of the sentinel under given pins (42_control_loop.md R102). -/
theorem stepPins_clRead_sentinel {s : State} {p : Pins} (hp : paramsWf s.params = true) (hg : s.gate = .run)
    (hc : ControlPins p) (h : s.clPc = .read) (hs : isSentinel s.sample = true) :
    stepPins p s = .next { s with cur := s.params.termIdx, clPc := .clear, drawIndex := s.drawIndex + 1 } := by
  rw [stepPins_clRead hp hg hc h, hs]
  rfl

/-- CL.RENDER and CL.CMP before the dwell is over, in both variants. -/
theorem runPins_render_before {s : State} {r : StateRecord} {a b : Pins} (hp : paramsWf s.params = true) (hg : s.gate = .run)
    (hpc : s.clPc = .render) (hr : tableRead s.params s.cur = some r) (hd : s.elapsed < r.dwell)
    (hc : ∀ p ∈ [a, b], ControlPins p) :
    runPins [a, b] s = .next { s with ind0 := r.ind0, ind1 := r.ind1, clPc := .test, drawIndex := s.drawIndex + 2 } := by
  simp only [List.forall_mem_cons] at hc
  obtain ⟨ha, hb, -⟩ := hc
  rw [runPins_cons_of (stepPins_clRender hp hg ha hpc hr)]
  exact runPins_singleton_of (stepPins_clCmp_before hp hg hb rfl hr hd)

/-- CL.RENDER and CL.CMP of the default machine once the dwell is over. -/
theorem runPins_render_expired {s : State} {r : StateRecord} {a b : Pins} (hp : paramsWf s.params = true) (hg : s.gate = .run)
    (hpc : s.clPc = .render) (hat : s.params.atomicDwellReset = false) (hr : tableRead s.params s.cur = some r)
    (hd : r.dwell ≤ s.elapsed) (hc : ∀ p ∈ [a, b], ControlPins p) :
    runPins [a, b] s = .next { s with ind0 := r.ind0, ind1 := r.ind1, clPc := .trans, drawIndex := s.drawIndex + 2 } := by
  simp only [List.forall_mem_cons] at hc
  obtain ⟨ha, hb, -⟩ := hc
  rw [runPins_cons_of (stepPins_clRender hp hg ha hpc hr)]
  exact runPins_singleton_of (stepPins_clCmp_expired hp hg hb rfl hat hr hd)

/-- CL.TRANS and CL.RESET (42_control_loop.md R106, R107). -/
theorem runPins_trans_reset {s : State} {r n : StateRecord} {a b : Pins} (hp : paramsWf s.params = true) (hg : s.gate = .run)
    (hpc : s.clPc = .trans) (hr : tableRead s.params s.cur = some r)
    (hn : tableRead s.params (recordNext r s.input) = some n) (hc : ∀ p ∈ [a, b], ControlPins p) :
    runPins [a, b] s = .next { s with
      cur := recordNext r s.input, motorL := n.left, motorR := n.right, driveCount := s.driveCount + 1, elapsed := 0
      clPc := .test, drawIndex := s.drawIndex + 2 } := by
  simp only [List.forall_mem_cons] at hc
  obtain ⟨ha, hb, -⟩ := hc
  rw [runPins_cons_of (stepPins_clTrans hp hg ha hpc hr hn)]
  exact runPins_singleton_of (stepPins_clReset hp hg hb rfl)

/-- CL.RENDER and the atomic CL.CMP once the dwell is over (42_control_loop.md R109). -/
theorem runPins_render_atomic {s : State} {r n : StateRecord} {a b : Pins} (hp : paramsWf s.params = true) (hg : s.gate = .run)
    (hpc : s.clPc = .render) (hat : s.params.atomicDwellReset = true) (hr : tableRead s.params s.cur = some r)
    (hn : tableRead s.params (recordNext r s.input) = some n) (hd : r.dwell ≤ s.elapsed)
    (hc : ∀ p ∈ [a, b], ControlPins p) :
    runPins [a, b] s = .next { s with
      ind0 := r.ind0, ind1 := r.ind1, cur := recordNext r s.input, motorL := n.left, motorR := n.right
      driveCount := s.driveCount + 1, elapsed := 0, clPc := .test, drawIndex := s.drawIndex + 2 } := by
  simp only [List.forall_mem_cons] at hc
  obtain ⟨ha, hb, -⟩ := hc
  rw [runPins_cons_of (stepPins_clRender hp hg ha hpc hr)]
  exact runPins_singleton_of (stepPins_clCmp_atomic hp hg hb rfl hat hr hn hd)

/-- Settles O58: CL.READ raises the exception, CL.CLEAR goes on to P_RENDER, and CL.RENDER and CL.CMP read the terminal State's
record. -/
theorem sensorLostSequence : Obligations.SensorLostSequence := by
  intro s r ins hI hg hpc hs hat hr hc hlen
  obtain ⟨hp, -⟩ := hI
  obtain ⟨a, b, c, d, rfl⟩ := pins_of_length_four hlen
  rw [List.forall_mem_cons, List.forall_mem_cons] at hc
  obtain ⟨ha, hb, hcd⟩ := hc
  refine runPins_step (stepPins_clRead_sentinel hp hg ha hpc ((isSentinel_iff _).mpr hs)) ?_
  refine runPins_step (stepPins_clClear hp hg hb rfl) ?_
  obtain hd | hd := Nat.lt_or_ge s.elapsed r.dwell
  · rw [if_neg (Nat.not_le.mpr hd)]
    exact runPins_render_before hp hg rfl hr hd hcd
  · rw [if_pos hd]
    exact runPins_render_expired hp hg rfl hat hr hd hcd

/-- How many operations an iteration has up to CL.RENDER (42_control_loop.md R100). -/
def headLength (s : State) : Nat := 1 + if s.sampleReady then 2 else 0

/-- The operations up to CL.RENDER do step 1 of the block: the cursor, the Input code and the flag (42_control_loop.md R108). -/
theorem runPins_head {s : State} {ins : List Pins} (hp : paramsWf s.params = true) (hg : s.gate = .run)
    (hpc : s.clPc = .test) (hc : ∀ p ∈ ins, ControlPins p) (hlen : ins.length = headLength s) :
    runPins ins s = .next { s with
      cur := iterCursor s, input := iterInput s, sampleReady := false, clPc := .render
      drawIndex := s.drawIndex + headLength s } := by
  cases hready : s.sampleReady with
  | false =>
    rw [headLength, hready] at hlen
    obtain ⟨a, rfl⟩ := List.length_eq_one_iff.mp hlen
    rw [runPins_singleton_of (stepPins_clTest hp hg (hc a (List.mem_singleton_self a)) hpc)]
    simp [iterCursor, iterSentinel, iterInput, headLength, hready]
  | true =>
    rw [headLength, hready] at hlen
    obtain ⟨a, b, c, rfl⟩ := List.length_eq_three.mp hlen
    simp only [List.forall_mem_cons] at hc
    obtain ⟨ha, hb, hcc, -⟩ := hc
    have htest : stepPins a s = .next { s with clPc := .read, drawIndex := s.drawIndex + 1 } := by
      rw [stepPins_clTest hp hg ha hpc, hready, if_pos rfl]
    have hrun := runPins_step htest (runPins_step (stepPins_clRead hp hg hb rfl)
      (runPins_singleton_of (stepPins_clClear hp hg hcc rfl)))
    rw [hrun]
    cases hs : isSentinel s.sample <;> simp [iterCursor, iterSentinel, iterInput, headLength, hready, hs]

/-- The dwell test of the block, by the record of the cursor after step 1 (42_control_loop.md R108). -/
theorem iterExpired_iff {s : State} {r : StateRecord} (hr : tableRead s.params (iterCursor s) = some r) :
    iterExpired s = true ↔ r.dwell ≤ s.elapsed := by
  simp only [iterExpired, hr, decide_eq_true_eq]

/-- The block before the dwell is over (42_control_loop.md R108). -/
theorem iterate_before {s : State} {r : StateRecord} (hr : tableRead s.params (iterCursor s) = some r)
    (hd : s.elapsed < r.dwell) :
    iterate s = .next { s with
      cur := iterCursor s, input := iterInput s, sampleReady := false, ind0 := r.ind0, ind1 := r.ind1 } := by
  rw [iterate, withRecord_some _ hr, if_neg (by rw [iterExpired_iff hr]; omega)]

/-- The block once the dwell is over (42_control_loop.md R108). -/
theorem iterate_expired {s : State} {r n : StateRecord} (hr : tableRead s.params (iterCursor s) = some r)
    (hn : tableRead s.params (recordNext r (iterInput s)) = some n) (hd : r.dwell ≤ s.elapsed) :
    iterate s = .next { s with
      cur := recordNext r (iterInput s), input := iterInput s, sampleReady := false, ind0 := r.ind0, ind1 := r.ind1
      motorL := n.left, motorR := n.right, driveCount := s.driveCount + 1, elapsed := 0 } := by
  rw [iterate, withRecord_some _ hr, if_pos ((iterExpired_iff hr).mpr hd), withRecord_some _ hn]

/-- In a good state the cursor after step 1 of the block has a record, and so has its successor. -/
theorem iterCursor_record {s : State} (hI : GoodState s) :
    ∃ r n, tableRead s.params (iterCursor s) = some r ∧ tableRead s.params (recordNext r (iterInput s)) = some n := by
  obtain ⟨hp, hcur, -⟩ := hI
  obtain ⟨-, -, -, -, -, hterm, -⟩ := (paramsWf_iff s.params).mp hp
  have hlt : (iterCursor s).toNat < s.params.nStates := by
    unfold iterCursor
    split
    · exact hterm
    · exact hcur
  obtain ⟨r, hr⟩ := tableRead_of_lt hlt
  obtain ⟨n, hn⟩ := tableRead_next hp hr (iterInput s)
  exact ⟨r, n, hr, hn⟩

/-- The operations from CL.RENDER on do steps 2 and 3 of the block (42_control_loop.md R108, R109). -/
theorem runPins_tail {s : State} {r n : StateRecord} {ins : List Pins} (hp : paramsWf s.params = true) (hg : s.gate = .run)
    (hpc : s.clPc = .render) (hr : tableRead s.params s.cur = some r)
    (hn : tableRead s.params (recordNext r s.input) = some n) (hd : r.dwell ≤ s.elapsed) (hc : ∀ p ∈ ins, ControlPins p)
    (hlen : ins.length = 2 + if s.params.atomicDwellReset then 0 else 2) :
    runPins ins s = .next { s with
      ind0 := r.ind0, ind1 := r.ind1, cur := recordNext r s.input, motorL := n.left, motorR := n.right
      driveCount := s.driveCount + 1, elapsed := 0, clPc := .test, drawIndex := s.drawIndex + ins.length } := by
  cases hat : s.params.atomicDwellReset with
  | true =>
    rw [hat] at hlen
    obtain ⟨a, b, rfl⟩ := List.length_eq_two.mp hlen
    exact runPins_render_atomic hp hg hpc hat hr hn hd hc
  | false =>
    rw [hat] at hlen
    obtain ⟨a, b, c, d, rfl⟩ := pins_of_length_four hlen
    obtain ⟨hab, hcd⟩ := List.forall_mem_append.mp (show ∀ p ∈ [a, b] ++ [c, d], ControlPins p from hc)
    exact runPins_trans (runPins_render_expired hp hg hpc hat hr hd hab) (runPins_trans_reset hp hg rfl hr hn hcd)

/-- How many operations an iteration has from CL.RENDER on (42_control_loop.md R100, R109). -/
def tailLength (s : State) : Nat := 2 + if iterExpired s && !s.params.atomicDwellReset then 2 else 0

/-- The operations of an iteration are those up to CL.RENDER and those from it on. -/
theorem iterLength_eq (s : State) : iterLength s = headLength s + tailLength s := by
  unfold iterLength headLength tailLength
  omega

/-- Settles O56: the operations up to CL.RENDER do step 1 of the block, and the rest its steps 2 and 3, by the outcome of the
dwell test. -/
theorem iterationIsOneBlock : Obligations.IterationIsOneBlock := by
  intro s ins hI ⟨hg, hpc⟩ hc hlen
  have ⟨hp, _⟩ := hI
  obtain ⟨r, n, hr, hn⟩ := iterCursor_record hI
  rw [iterLength_eq] at hlen ⊢
  obtain ⟨head, tail, rfl, hhead, htail⟩ : ∃ head tail, ins = head ++ tail ∧ head.length = headLength s ∧
      tail.length = tailLength s :=
    ⟨ins.take (headLength s), ins.drop (headLength s), (List.take_append_drop ..).symm,
      List.length_take_of_le (by omega), by rw [List.length_drop]; omega⟩
  obtain ⟨hchead, hctail⟩ := List.forall_mem_append.mp hc
  have hfirst := runPins_head hp hg hpc hchead hhead
  rw [← htail, ← Nat.add_assoc]
  obtain hd | hd := Nat.lt_or_ge s.elapsed r.dwell
  · have hexp : iterExpired s = false := by rw [← Bool.not_eq_true, iterExpired_iff hr]; omega
    rw [tailLength, hexp] at htail
    obtain ⟨a, b, rfl⟩ := List.length_eq_two.mp htail
    refine ⟨_, iterate_before hr hd, ?_⟩
    rw [hpc]
    exact runPins_trans hfirst (runPins_render_before hp hg rfl hr hd hctail)
  · have hexp : iterExpired s = true := (iterExpired_iff hr).mpr hd
    refine ⟨_, iterate_expired hr hn hd, ?_⟩
    have hrest : tail.length = 2 + if s.params.atomicDwellReset then 0 else 2 := by
      rw [htail, tailLength, hexp]
      cases s.params.atomicDwellReset <;> rfl
    rw [hpc]
    exact runPins_trans hfirst (runPins_tail hp hg rfl hr hn hd hctail hrest)

/-- Settles O57: without a sentinel the block compares the dwell of the cursor's record, and takes its edge by the Input code that
it ends with. -/
theorem dwellGatesTheCursor : Obligations.DwellGatesTheCursor := by
  intro s t r ins hI hstart hs hr hc hlen h
  obtain ⟨u, hu, hrun⟩ := iterationIsOneBlock s ins hI hstart hc hlen
  cases hrun.symm.trans h
  have hcur : iterCursor s = s.cur := by rw [iterCursor, hs]; rfl
  obtain ⟨r', n, hr', hn⟩ := iterCursor_record hI
  obtain rfl : r' = r := by rw [hcur] at hr'; exact Option.some.inj (hr'.symm.trans hr)
  refine ⟨fun hd => ?_, fun hd => ?_⟩
  · cases (iterate_before hr' hd).symm.trans hu
    exact ⟨hcur, rfl, rfl⟩
  · cases (iterate_expired hr' hn hd).symm.trans hu
    exact ⟨rfl, rfl, rfl⟩

end Sys2Proof.Machine
end


section
/-! SUPPORT. The start-up sequence (70_reset_and_hazards.md section 1): polls that see nothing, the press, polls while the control is
pressed, the release. -/

namespace Sys2Proof.Machine

section
variable {s : State} {p : Pins} (hp : paramsWf s.params = true) (hc : ControlPins p)
include hp hc

/-- Before the gate opens a Control step runs the operation that `gate` selects (43_start_gate_reset.md R120, R121). -/
theorem stepPins_gate {i : Instr} (hg : s.gate ≠ .run) (hd : decodeG (gateWord s.gate) = .ok i) :
    stepPins p s = afterStep (exec i { s with env := p :: s.env }) :=
  step_of_instr (s := { s with env := p :: s.env }) hp (nextInstr_of_gate hg hc hd)

/-- A poll before the press (43_start_gate_reset.md R120). -/
theorem stepPins_gatePress_waits (hg : s.gate = .waitPress) (h : p.startIn = false) :
    stepPins p s = .next { s with drawIndex := s.drawIndex + 1 } := by
  rw [stepPins_gate hp hc (i := .gatePress) (by simp [hg]) (by rw [hg]; rfl),
    exec_gatePress_waits (s := { s with env := p :: s.env }) h]
  rfl

/-- The press (43_start_gate_reset.md R120). -/
theorem stepPins_gatePress_pressed (hg : s.gate = .waitPress) (h : p.startIn = true) :
    stepPins p s = .next { s with gate := .waitRelease, drawIndex := s.drawIndex + 1 } := by
  rw [stepPins_gate hp hc (i := .gatePress) (by simp [hg]) (by rw [hg]; rfl),
    exec_gatePress_pressed (s := { s with env := p :: s.env }) h]
  rfl

/-- A poll before the release (43_start_gate_reset.md R121). -/
theorem stepPins_gateRelease_waits (hg : s.gate = .waitRelease) (h : p.startIn = true) :
    stepPins p s = .next { s with drawIndex := s.drawIndex + 1 } := by
  rw [stepPins_gate hp hc (i := .gateRelease) (by simp [hg]) (by rw [hg]; rfl),
    exec_gateRelease_waits (s := { s with env := p :: s.env }) h]
  rfl

/-- The release (43_start_gate_reset.md R121). -/
theorem stepPins_gateRelease_released (hg : s.gate = .waitRelease) (h : p.startIn = false) :
    stepPins p s = .next { s with gate := .run, drawIndex := s.drawIndex + 1 } := by
  rw [stepPins_gate hp hc (i := .gateRelease) (by simp [hg]) (by rw [hg]; rfl),
    exec_gateRelease_released (s := { s with env := p :: s.env }) h]
  rfl

end

/-- Polls that leave every register, however many. -/
theorem runPins_polls {p : Pins} {s : State}
    (h : ∀ d, stepPins p { s with drawIndex := d } = .next { s with drawIndex := d + 1 }) (k : Nat) :
    runPins (List.replicate k p) s = .next { s with drawIndex := s.drawIndex + k } := by
  suffices ∀ d, runPins (List.replicate k p) { s with drawIndex := d } = .next { s with drawIndex := d + k } from
    this s.drawIndex
  induction k with
  | zero => exact fun d => rfl
  | succ k ih =>
    intro d
    have hrest := ih (d + 1)
    rw [Nat.add_assoc, Nat.add_comm 1 k] at hrest
    exact runPins_step (h d) hrest

/-- Settles O60: the polls before the press and before the release leave the state, the press and the release move `gate`. -/
theorem startSequenceOpensTheGate : Obligations.StartSequenceOpensTheGate := by
  intro p a b hp
  have hcontrol (v : Bool) : ControlPins (controlPins v) := ⟨rfl, rfl⟩
  have hwaits := runPins_polls (s := State.initial p)
    (fun d => stepPins_gatePress_waits hp (hcontrol false) rfl rfl) a
  have hpress := stepPins_gatePress_pressed (s := { State.initial p with drawIndex := 0 + a }) hp
    (hcontrol true) rfl rfl
  have hholds := runPins_polls (s := { State.initial p with gate := .waitRelease, drawIndex := 0 + a + 1 })
    (fun d => stepPins_gateRelease_waits hp (hcontrol true) rfl rfl) b
  have hrelease := stepPins_gateRelease_released (s := { State.initial p with
    gate := .waitRelease, drawIndex := 0 + a + 1 + b }) hp (hcontrol false) rfl rfl
  have hrun := runPins_trans (runPins_trans hwaits (runPins_step hpress hholds)) (runPins_singleton_of hrelease)
  rw [show a + b + 2 = 0 + a + 1 + b + 1 by omega]
  exact hrun

end Sys2Proof.Machine
end


section
/-! SUPPORT. A sentinel published after a CL.TEST that saw 0 (60_exceptions.md section 3): what holds of the machine at each
operation of the rest of the iteration, before and after that tick. -/

namespace Sys2Proof.Machine

/-- The cursor and the levels are still those of `s`. -/
abbrev EdgeNotTaken (s t : State) : Prop := t.cur = s.cur ∧ t.motorL = s.motorL ∧ t.motorR = s.motorR

/-- The cursor and the levels are those of the successor `n` of the record `r` of `s`. -/
abbrev EdgeTaken (s : State) (r n : StateRecord) (t : State) : Prop :=
  t.cur = recordNext r s.input ∧ t.motorL = n.left ∧ t.motorR = n.right

/-- What an iteration that started in `s` has done to `t` when the operation of the given `cl_pc` is next and at most `k` ticks
have been counted (42_control_loop.md R104 to R107). -/
def TailAt (s : State) (r n : StateRecord) (k : Nat) (t : State) : ClPc → Prop
  | .render | .cmp => EdgeNotTaken s t ∧ s.elapsed ≤ t.elapsed ∧ t.elapsed ≤ s.elapsed + k
  | .trans => EdgeNotTaken s t ∧ r.dwell ≤ s.elapsed
  | .reset => EdgeTaken s r n t ∧ r.dwell ≤ s.elapsed
  | .test => (r.dwell ≤ s.elapsed → EdgeTaken s r n t) ∧ (s.elapsed < r.dwell → EdgeNotTaken s t)
  | .read | .clear => False

/-- `t` is in the rest of an iteration that started in `s`. -/
abbrev InTail (s : State) (r n : StateRecord) (k : Nat) (t : State) : Prop :=
  t.gate = .run ∧ t.params = s.params ∧ t.input = s.input ∧ TailAt s r n k t t.clPc

/-- How many operations of the iteration are left when the operation of the given `cl_pc` is next. -/
def tailSteps (s : State) : ClPc → Nat
  | .render => tailLength s
  | .cmp => tailLength s - 1
  | .trans => 2
  | .reset => 1
  | .test => 0
  | .read | .clear => 0

/-- What a tick publishes and a Control step after CL.CLEAR leaves: `phase`, the sample and its flag. -/
abbrev SameSample (t u : State) : Prop := u.phase = t.phase ∧ u.sample = t.sample ∧ u.sampleReady = t.sampleReady

section
variable {s t : State} {r n : StateRecord} {k m : Nat} {p : Pins} (hp : paramsWf s.params = true)
  (hr : tableRead s.params s.cur = some r) (hn : tableRead s.params (recordNext r s.input) = some n)
  (hexp : iterExpired s = true ↔ r.dwell ≤ s.elapsed) (hk : r.dwell ≤ s.elapsed ∨ s.elapsed + k < r.dwell)
  (ht : InTail s r n k t)
include hp hr hn hexp hk ht

/-- CL.CMP in the rest of the iteration: the ticks before it have not changed its outcome. -/
theorem inTail_cmp (hpc : t.clPc = .cmp) (hm : tailSteps s t.clPc = m + 1) (hc : ControlPins p) :
    ∃ u, stepPins p t = .next u ∧ InTail s r n k u ∧ tailSteps s u.clPc = m ∧ SameSample t u := by
  obtain ⟨hg, hparams, hinput, htail⟩ := ht
  rw [hpc] at htail hm
  obtain ⟨⟨hcur, hl, hright⟩, hle, hlt⟩ := htail
  have hnext : recordNext r t.input = recordNext r s.input := by rw [hinput]
  rw [← hparams] at hp hr hn
  rw [← hcur] at hr
  simp only [tailSteps, tailLength] at hm
  obtain hd | hd := hk
  · rw [hexp.mpr hd] at hm
    cases ha : s.params.atomicDwellReset with
    | true =>
      rw [← hnext] at hn
      have hm0 : m = 0 := by simpa [ha] using hm
      exact ⟨_, stepPins_clCmp_atomic hp hg hc hpc (hparams ▸ ha) hr hn (by omega),
        ⟨hg, hparams, hinput, fun _ => ⟨hnext, rfl, rfl⟩, fun h => absurd hd (Nat.not_le.mpr h)⟩, hm0.symm, rfl, rfl, rfl⟩
    | false =>
      have hm2 : m = 2 := by simpa [ha] using hm
      exact ⟨_, stepPins_clCmp_expired hp hg hc hpc (hparams ▸ ha) hr (by omega),
        ⟨hg, hparams, hinput, ⟨hcur, hl, hright⟩, hd⟩, hm2.symm, rfl, rfl, rfl⟩
  · have hno : iterExpired s = false := by rw [← Bool.not_eq_true, hexp]; omega
    rw [hno] at hm
    have hm0 : m = 0 := by simpa using hm
    exact ⟨_, stepPins_clCmp_before hp hg hc hpc hr (by omega),
      ⟨hg, hparams, hinput, fun h => absurd hd (by omega), fun _ => ⟨hcur, hl, hright⟩⟩, hm0.symm, rfl, rfl, rfl⟩

/-- One more operation of the iteration: it is the next one, and it leaves `phase`, the sample and its flag. -/
theorem inTail_control (hm : tailSteps s t.clPc = m + 1) (hc : ControlPins p) :
    ∃ u, stepPins p t = .next u ∧ InTail s r n k u ∧ tailSteps s u.clPc = m ∧ SameSample t u := by
  have hcmp (hpc : t.clPc = .cmp) := inTail_cmp hp hr hn hexp hk ht hpc hm hc
  obtain ⟨hg, hparams, hinput, htail⟩ := ht
  have hnext : recordNext r t.input = recordNext r s.input := by rw [hinput]
  rw [← hparams] at hp hr hn
  rw [← hnext] at hn
  cases hpc : t.clPc with
  | test => simp [hpc, tailSteps] at hm
  | read => simp [hpc, tailSteps] at hm
  | clear => simp [hpc, tailSteps] at hm
  | render =>
    rw [hpc] at htail hm
    obtain ⟨⟨hcur, hl, hright⟩, hle, hlt⟩ := htail
    rw [← hcur] at hr
    refine ⟨_, stepPins_clRender hp hg hc hpc hr, ⟨hg, hparams, hinput, ⟨hcur, hl, hright⟩, hle, hlt⟩, ?_, rfl, rfl, rfl⟩
    simp only [tailSteps] at hm ⊢
    omega
  | cmp => exact hcmp hpc
  | trans =>
    rw [hpc] at htail hm
    obtain ⟨⟨hcur, -⟩, hd⟩ := htail
    rw [← hcur] at hr
    exact ⟨_, stepPins_clTrans hp hg hc hpc hr hn, ⟨hg, hparams, hinput, ⟨hnext, rfl, rfl⟩, hd⟩, Nat.succ.inj hm, rfl, rfl, rfl⟩
  | reset =>
    rw [hpc] at htail hm
    obtain ⟨htaken, hd⟩ := htail
    exact ⟨_, stepPins_clReset hp hg hc hpc, ⟨hg, hparams, hinput, fun _ => htaken, fun h => absurd hd (by omega)⟩,
      Nat.succ.inj hm, rfl, rfl, rfl⟩

/-- Some more operations of the iteration, by induction on their pin samples. -/
theorem inTail_run {ins : List Pins} (hm : tailSteps s t.clPc = m + ins.length) (hc : ∀ q ∈ ins, ControlPins q) :
    ∃ u, runPins ins t = .next u ∧ InTail s r n k u ∧ tailSteps s u.clPc = m ∧ SameSample t u := by
  induction ins generalizing t with
  | nil => exact ⟨t, rfl, ht, hm, rfl, rfl, rfl⟩
  | cons q qs ih =>
    obtain ⟨hq, hqs⟩ := List.forall_mem_cons.mp hc
    obtain ⟨u, hu, htu, hmu, hphase, hsample, hready⟩ := inTail_control hp hr hn hexp hk ht hm hq
    obtain ⟨v, hv, htv, hmv, hphase', hsample', hready'⟩ := ih htu hmu hqs
    exact ⟨v, runPins_step hu hv, htv, hmv, hphase'.trans hphase, hsample'.trans hsample, hready'.trans hready⟩

end

/-- A tick lengthens the dwell by one at most (41_sampler.md R94). -/
theorem satInc_le_succ (w v : Nat) : satInc w v ≤ v + 1 := by
  unfold satInc
  split <;> omega

/-- A tick leaves the iteration where it is, one tick later. -/
theorem inTail_tickEnd {s t : State} {r n : StateRecord} {k : Nat} {p : Pins} (hI : GoodState t) (ht : InTail s r n k t)
    (hphase : t.phase = 1) (hp : TickPins p) :
    ∃ u, stepPins p t = .next u ∧ InTail s r n (k + 1) u ∧ u.clPc = t.clPc ∧ u.sample = p.sensorData ∧
      u.sampleReady = true := by
  obtain ⟨hg, hparams, hinput, htail⟩ := ht
  obtain ⟨bc, hu⟩ := stepPins_tickEnd hI hg hphase hp
  refine ⟨_, hu, ⟨hg, hparams, hinput, ?_⟩, rfl, rfl, rfl⟩
  have hge := le_satInc t.params.wElapsed t.elapsed
  have hle := satInc_le_succ t.params.wElapsed t.elapsed
  cases hpc : t.clPc
  case render | cmp =>
    rw [hpc] at htail
    obtain ⟨huntaken, hlow, hhigh⟩ := htail
    exact ⟨huntaken, hlow.trans hge, hle.trans (Nat.add_le_add_right hhigh 1)⟩
  all_goals
    rw [hpc] at htail
    exact htail

/-- The iteration is over when none of its operations is left. -/
theorem clPc_test_of_tailSteps {s t : State} {r n : StateRecord} {k : Nat} (ht : InTail s r n k t)
    (hm : tailSteps s t.clPc = 0) : t.clPc = .test := by
  obtain ⟨-, -, -, htail⟩ := ht
  cases hpc : t.clPc with
  | test => rfl
  | render => simp [hpc, tailSteps, tailLength] at hm
  | cmp =>
    rw [hpc, tailSteps, tailLength] at hm
    omega
  | trans => simp [hpc, tailSteps] at hm
  | reset => simp [hpc, tailSteps] at hm
  | read => rw [hpc] at htail; exact htail.elim
  | clear => rw [hpc] at htail; exact htail.elim

/-- Settles O54: the rest of the iteration goes on to its end on both sides of the tick, and CL.TEST and CL.READ then find the
sentinel. -/
theorem sentinelAfterTestWaitsForNextIteration : Obligations.SentinelAfterTestWaitsForNextIteration := by
  intro s r n c p d e before after hI ⟨hg, hpc⟩ hready hphase hr hn hc hp hsent hlen hdwell
  have ⟨hwf, _⟩ := hI
  simp only [List.forall_mem_cons, List.forall_mem_append] at hc
  obtain ⟨⟨hcc, hd, he, hbefore⟩, hafter⟩ := hc
  have hcursor : iterCursor s = s.cur := by rw [iterCursor, iterSentinel, hready]; rfl
  have hexp : iterExpired s = true ↔ r.dwell ≤ s.elapsed := iterExpired_iff (by rw [hcursor]; exact hr)
  have hhead : headLength s = 1 := by rw [headLength, hready]; rfl
  have htest : stepPins c s = .next { s with clPc := .render, drawIndex := s.drawIndex + 1 } := by
    rw [stepPins_clTest hwf hg hcc hpc, hready]
    rfl
  have hin : InTail s r n 0 { s with clPc := .render, drawIndex := s.drawIndex + 1 } :=
    ⟨hg, rfl, rfl, ⟨rfl, rfl, rfl⟩, Nat.le_refl _, Nat.le_refl _⟩
  have hsteps : tailSteps s .render = after.length + before.length := by
    rw [tailSteps]
    rw [iterLength_eq] at hlen
    omega
  obtain ⟨u, hu, hinu, hmu, hphaseu, -, -⟩ := inTail_run hwf hr hn hexp (by omega) hin hsteps hbefore
  have hIu := runPins_good (stepPins_good hI htest) hu
  obtain ⟨v, hv, hinv, hpcv, hsample, hreadyv⟩ := inTail_tickEnd hIu hinu (hphaseu.trans hphase) hp
  obtain ⟨t, ht, hint, hmt, -, hsamplet, hreadyt⟩ := inTail_run (m := 0) hwf hr hn hexp (by omega) hinv
    (by rw [hpcv, hmu, Nat.zero_add]) hafter
  have hpct := clPc_test_of_tailSteps hint hmt
  obtain ⟨hgt, hparamst, hinputt, htail⟩ := hint
  rw [hpct] at htail
  obtain ⟨htaken, huntaken⟩ := htail
  have hwft : paramsWf t.params = true := hparamst ▸ hwf
  have hnext : stepPins d t = .next { t with clPc := .read, drawIndex := t.drawIndex + 1 } := by
    rw [stepPins_clTest hwft hgt hd hpct, hreadyt.trans hreadyv]
    rfl
  have hread := stepPins_clRead_sentinel (s := { t with clPc := .read, drawIndex := t.drawIndex + 1 }) hwft hgt he rfl
    ((isSentinel_iff _).mpr (hsamplet.trans (hsample.trans hsent)))
  exact ⟨t, _, runPins_step htest (runPins_trans hu (runPins_step hv ht)), hpct, hreadyt.trans hreadyv, hinputt, htaken,
    huntaken, runPins_step hnext (runPins_singleton_of hread), congrArg Params.termIdx hparamst, hinputt, rfl, rfl⟩

end Sys2Proof.Machine
end


section
/-! SUPPORT. The variant ATOMIC_DWELL_RESET beside the default machine (42_control_loop.md R109): every step of the variant is one
step of the default machine, but for the CL.CMP that takes the edge, which is three. -/

namespace Sys2Proof.Machine

/-- The default machine's state beside a state of the variant, at its own number of samples drawn. -/
def asDefault (d : Nat) (s : State) : State := { withoutAtomic s with drawIndex := d }

/-- An operation that takes no edge in CL.CMP is the same in both machines. -/
theorem exec_asDefault {i : Instr} {s u : State} {p : Pins} {e : List Pins} (d : Nat) (ha : s.params.atomicDwellReset = true)
    (he : s.env = p :: e) (hedge : ¬ (i = .clCmp ∧ cmpTakesEdge s = true)) (h : exec i s = .next u) :
    exec i (asDefault d s) = .next (asDefault d u) := by
  have hpins : pinsNow (asDefault d s) = pinsNow s := by simp [pinsNow, asDefault, withoutAtomic, he]
  have hstart : startIn (asDefault d s) = startIn s := congrArg Pins.startIn hpins
  cases i
  case tickBegin | tickIdle23 | tickIdle47 | tickIdle8up | clTest | clClear | clReset | reset => cases h; rfl
  case tickEnd =>
    cases h
    have hbyte : sensorEnd (asDefault d s) = sensorEnd s := congrArg Pins.sensorData hpins
    simp only [exec, execTickEnd, hbyte]
    rfl
  case clRead =>
    by_cases hs : isSentinel s.sample = true
    · cases (exec_clRead_sentinel hs).symm.trans h
      exact exec_clRead_sentinel (s := asDefault d s) hs
    · cases (exec_clRead_latch hs).symm.trans h
      exact exec_clRead_latch (s := asDefault d s) hs
  case clRender =>
    obtain ⟨r, hr, rfl⟩ := exec_clRender_next h
    exact exec_clRender (s := asDefault d s) hr
  case clCmp =>
    obtain ⟨r, hr, -⟩ := withRecord_next h
    have hd : s.elapsed < r.dwell := Nat.lt_of_not_le fun hd => hedge ⟨rfl, (cmpTakesEdge_iff hr).mpr ⟨ha, hd⟩⟩
    cases (exec_clCmp_before hr hd).symm.trans h
    exact exec_clCmp_before (s := asDefault d s) hr hd
  case clTrans =>
    obtain ⟨r, n, hr, hn, rfl⟩ := exec_clTrans_next h
    exact exec_clTrans (s := asDefault d s) hr hn
  case gatePress =>
    cases hp : startIn s with
    | false =>
      cases (exec_gatePress_waits hp).symm.trans h
      exact exec_gatePress_waits (hstart.trans hp)
    | true =>
      cases (exec_gatePress_pressed hp).symm.trans h
      exact exec_gatePress_pressed (hstart.trans hp)
  case gateRelease =>
    cases hp : startIn s with
    | false =>
      cases (exec_gateRelease_released hp).symm.trans h
      exact exec_gateRelease_released (hstart.trans hp)
    | true =>
      cases (exec_gateRelease_waits hp).symm.trans h
      exact exec_gateRelease_waits (hstart.trans hp)

/-- Under the same pin sample both machines select the same operation. -/
theorem opsOver_asDefault {p : Pins} {s v : State} {d : Nat} (h : stepPins p (asDefault d s) = .next v) :
    opsOver [p] (asDefault d s) = (nextInstr { s with env := p :: s.env }).toList :=
  (opsOver_cons [] h).trans (List.append_nil _)

/-- A step that selects nothing uses its pin sample up (41_sampler.md R93). -/
theorem step_of_selectWord_none {s : State} (hp : paramsWf s.params = true) (h : selectWord s = none) :
    step s = .next (usePins s) := by
  simp only [step, hp, if_true, h]

/-- A step that takes no edge in CL.CMP is the same in both machines. -/
theorem stepPins_asDefault {p : Pins} {s u : State} (d : Nat) (ha : s.params.atomicDwellReset = true)
    (hedge : ¬ (nextInstr { s with env := p :: s.env } = some .clCmp ∧ cmpTakesEdge s = true))
    (h : stepPins p s = .next u) : stepPins p (asDefault d s) = .next (asDefault (d + 1) u) := by
  have hwf := (step_next h).1
  obtain ⟨hsel, -, rfl⟩ | ⟨i, v, hi, hv, rfl⟩ := step_next_instr h
  · exact step_of_selectWord_none (s := { asDefault d s with env := p :: s.env }) hwf hsel
  · have hexec := exec_asDefault d (s := { s with env := p :: s.env }) ha rfl
      (fun hc => hedge ⟨hi.trans (congrArg some hc.1), hc.2⟩) hv
    have hstep := step_of_instr (s := { asDefault d s with env := p :: s.env }) hwf hi
    exact hstep.trans (congrArg afterStep hexec)

/-- An operation of the Control Loop is selected by `cl_pc`, by a Control sample with the gate open (30_encoding.md R67). -/
theorem loop_of_nextInstr {s : State} {i : Instr} (hl : isControlLoop i = true) (h : nextInstr s = some i) :
    ControlPins (pinsNow s) ∧ s.gate = .run ∧ decodeC (clPcWord s.clPc) = .ok i := by
  obtain ⟨rfl, -⟩ | ⟨-, -, -, hd⟩ | ⟨hr, ht, hg, hd⟩ | ⟨-, -, hd⟩ := nextInstr_some h
  · cases hl
  · have henc := (encodeOfDecode _ (.S s.phase) i hd).1
    cases (phase?_of_isControlLoop hl).symm.trans (phase?_of_encode_S henc)
  · exact ⟨⟨hr, ht⟩, hg, hd⟩
  · obtain ⟨-, hg⟩ | ⟨-, hg⟩ | ⟨-, hg⟩ | ⟨-, hg⟩ := decodeG_cases (gateWord s.gate) <;> cases hg.symm.trans hd <;> cases hl

/-- Two values of `cl_pc` that select the same operation are one (30_encoding.md R67). -/
theorem clPc_eq_of_decodeC {c c' : ClPc} {i : Instr} (h : decodeC (clPcWord c) = .ok i)
    (h' : decodeC (clPcWord c') = .ok i) : c = c' := by
  have hword (a : ClPc) : clPcOfWord (clPcWord a) = some a := by cases a <;> rfl
  have henc := (encodeOfDecode 0 (.C _) i h).1.symm.trans (encodeOfDecode 0 (.C _) i h').1
  have hsame : some c = some c' := by rw [← hword c, ← hword c', SelectorWord.C.inj henc]
  exact Option.some.inj hsame

/-- The variant never selects CL.TRANS or CL.RESET (42_control_loop.md R109). -/
theorem nextInstr_atomic {s : State} {i : Instr} (hI : GoodState s) (ha : s.params.atomicDwellReset = true)
    (h : nextInstr s = some i) : i ≠ .clTrans ∧ i ≠ .clReset := by
  obtain ⟨-, -, -, -, -, -, hatomic⟩ := hI
  obtain ⟨htrans, hreset⟩ := hatomic ha
  refine ⟨?_, ?_⟩
  · rintro rfl
    obtain ⟨-, -, hd⟩ := loop_of_nextInstr rfl h
    exact htrans (clPc_eq_of_decodeC hd rfl)
  · rintro rfl
    obtain ⟨-, -, hd⟩ := loop_of_nextInstr rfl h
    exact hreset (clPc_eq_of_decodeC hd rfl)

/-- The operations of two runs after another. -/
theorem opsOver_append {ps : List Pins} {s t : State} (qs : List Pins) (h : runPins ps s = .next t) :
    opsOver (ps ++ qs) s = opsOver ps s ++ opsOver qs t := by
  induction ps generalizing s with
  | nil => cases h; rfl
  | cons p ps ih =>
    obtain ⟨u, hu, h⟩ := runPins_cons_next h
    rw [List.cons_append, opsOver_cons _ hu, opsOver_cons _ hu, ih h, List.append_assoc]

/-- The operation of a Control step with the gate open, then those of the rest. -/
theorem opsOver_loop {s u : State} {p : Pins} {ps : List Pins} {i : Instr} {is : List Instr}
    (h : stepPins p s = .next u) (hg : s.gate = .run) (hc : ControlPins p) (hd : decodeC (clPcWord s.clPc) = .ok i)
    (hops : opsOver ps u = is) : opsOver (p :: ps) s = i :: is := by
  have hi : nextInstr { s with env := p :: s.env } = some i := nextInstr_of_loop hg hc hd
  rw [opsOver_cons ps h, hi, hops]
  rfl

/-- The samples that the default machine has more for one step of the variant. -/
def transitionSteps (p : Pins) (s : State) : List Pins :=
  if nextInstr { s with env := p :: s.env } = some .clCmp ∧ cmpTakesEdge s = true then
    [controlPins false, controlPins false]
  else []

/-- The samples of the default machine, step by step of the variant. -/
theorem withTransitionSteps_cons {p : Pins} {s u : State} (ps : List Pins) (h : stepPins p s = .next u) :
    withTransitionSteps (p :: ps) s = (p :: transitionSteps p s) ++ withTransitionSteps ps u := by
  unfold transitionSteps
  split
  case isTrue hedge => exact withTransitionSteps_edge ps h hedge.1 hedge.2
  case isFalse hedge => exact withTransitionSteps_other ps h hedge

/-- Whether an operation is one of the two that the variant does not run. -/
def isOfBoth (i : Instr) : Bool := i != .clTrans && i != .clReset

/-- Where the variant's CL.CMP takes the edge, the default machine does so in CL.CMP, CL.TRANS and CL.RESET. -/
theorem asDefault_edge {p : Pins} {s u : State} (d : Nat) (hI : GoodState s) (ha : s.params.atomicDwellReset = true)
    (hi : nextInstr { s with env := p :: s.env } = some .clCmp) (hedge : cmpTakesEdge s = true)
    (h : stepPins p s = .next u) :
    runPins [p, controlPins false, controlPins false] (asDefault d s) = .next (asDefault (d + 3) u) ∧
    opsOver [p, controlPins false, controlPins false] (asDefault d s) = [.clCmp, .clTrans, .clReset] := by
  obtain ⟨hp, hcur, -⟩ := hI
  obtain ⟨hc, hg, hd⟩ : ControlPins p ∧ s.gate = .run ∧ decodeC (clPcWord s.clPc) = .ok .clCmp :=
    loop_of_nextInstr rfl hi
  have hpc : s.clPc = .cmp := clPc_eq_of_decodeC hd rfl
  obtain ⟨r, hr⟩ := tableRead_of_lt hcur
  obtain ⟨n, hn⟩ := tableRead_next hp hr s.input
  obtain ⟨-, hdwell⟩ := (cmpTakesEdge_iff hr).mp hedge
  cases (stepPins_clCmp_atomic hp hg hc hpc ha hr hn hdwell).symm.trans h
  have hcontrol : ControlPins (controlPins false) := ⟨rfl, rfl⟩
  have hcmp := stepPins_clCmp_expired (s := asDefault d s) hp hg hc hpc rfl hr hdwell
  have htrans := stepPins_clTrans (s := { asDefault d s with clPc := .trans, drawIndex := d + 1 }) hp hg hcontrol rfl hr hn
  have hreset := stepPins_clReset (s := { asDefault d s with
    cur := recordNext r s.input, motorL := n.left, motorR := n.right, driveCount := s.driveCount + 1, clPc := .reset
    drawIndex := d + 2 }) hp hg hcontrol rfl
  exact ⟨runPins_step hcmp (runPins_step htrans (runPins_singleton_of hreset)),
    opsOver_loop hcmp hg hc hd (opsOver_loop htrans hg hcontrol rfl (opsOver_loop hreset hg hcontrol rfl rfl))⟩

/-- One step of the variant in the default machine: the same state, and the same operation but for CL.TRANS and CL.RESET. -/
theorem asDefault_step {p : Pins} {s u : State} (d : Nat) (hI : GoodState s) (ha : s.params.atomicDwellReset = true)
    (h : stepPins p s = .next u) :
    runPins (p :: transitionSteps p s) (asDefault d s) = .next (asDefault (d + (p :: transitionSteps p s).length) u) ∧
    (opsOver (p :: transitionSteps p s) (asDefault d s)).filter isOfBoth =
      (nextInstr { s with env := p :: s.env }).toList := by
  unfold transitionSteps
  split
  case isTrue hedge =>
    obtain ⟨hrun, hops⟩ := asDefault_edge d hI ha hedge.1 hedge.2 h
    exact ⟨hrun, by rw [hops, hedge.1]; rfl⟩
  case isFalse hedge =>
    have hstep := stepPins_asDefault d ha hedge h
    refine ⟨runPins_singleton_of hstep, ?_⟩
    rw [opsOver_asDefault hstep]
    cases hi : nextInstr { s with env := p :: s.env } with
    | none => rfl
    | some i =>
      obtain ⟨htrans, hreset⟩ := nextInstr_atomic (goodState_env hI (p :: s.env)) ha hi
      simp [isOfBoth, htrans, hreset]

/-- The samples added are Control samples (42_control_loop.md R109). -/
theorem filter_transitionSteps (p : Pins) (s : State) : (transitionSteps p s).filter (fun q => q.rst || q.tick) = [] := by
  unfold transitionSteps
  split <;> rfl

/-- Settles O59, by induction on the run of the variant, for every number of samples that the default machine has drawn. -/
theorem atomicVariantRefinesDefault : Obligations.AtomicVariantRefinesDefault := by
  intro s t ins hI ha h
  suffices hall : ∀ d, runPins (withTransitionSteps ins s) (asDefault d s) =
        .next (asDefault (d + (withTransitionSteps ins s).length) t) ∧
      ins.Sublist (withTransitionSteps ins s) ∧
      (withTransitionSteps ins s).filter (fun p => p.rst || p.tick) = ins.filter (fun p => p.rst || p.tick) ∧
      (opsOver (withTransitionSteps ins s) (asDefault d s)).filter isOfBoth = opsOver ins s from hall s.drawIndex
  induction ins generalizing s with
  | nil =>
    cases h
    exact fun d => ⟨rfl, List.Sublist.refl _, rfl, rfl⟩
  | cons p ps ih =>
    intro d
    obtain ⟨u, hu, h⟩ := runPins_cons_next h
    obtain ⟨hrun, hops⟩ := asDefault_step d hI ha hu
    have hparams := (stepPins_env hu).2
    obtain ⟨hrun', hsub, hfilter, hops'⟩ := ih u (stepPins_good hI hu) (hparams ▸ ha) h
      (d + (p :: transitionSteps p s).length)
    rw [withTransitionSteps_cons ps hu]
    refine ⟨?_, ?_, ?_, ?_⟩
    · rw [List.length_append, ← Nat.add_assoc]
      exact runPins_trans hrun hrun'
    · exact (hsub.trans (List.sublist_append_right ..)).cons_cons p
    · simp only [List.cons_append, List.filter_cons, List.filter_append, filter_transitionSteps, List.nil_append, hfilter]
    · rw [opsOver_append _ hrun, List.filter_append, hops, hops', opsOver_cons ps hu]

end Sys2Proof.Machine
end
